-- ==== Sys2Proof/Word.lean ====
section
/-! DEFINITION. The plain value types of the machine: the byte, the 16-bit word, the 24-bit address and the
two operand widths. Everything that computes with them stands in `Machine/Bits.lean` and `Machine/Address.lean`. -/

namespace Sys2Proof

/-- `bits8` of R9: a byte. -/
abbrev Byte := BitVec 8

/-- `bits16` of R9: a 16-bit register, offset or operand. -/
abbrev Word := BitVec 16

/-- R70: an address is a bank and an offset; it denotes the 24-bit machine address `bank << 16 | offset`. -/
structure Addr where
  bank   : Byte
  offset : Word
deriving DecidableEq, Repr

/-- The width of an operation, 8 or 16 bits (`wA`, `wX` of R10). -/
inductive Width where
  | w8
  | w16
deriving DecidableEq, Repr

end Sys2Proof
end

