-- ==== Sys2Proof/Machine/Mode.lean ====
section
/-! DEFINITION. The addressing modes of R112, each with the operand that its bytes encode, and what R112 says of
them: the instruction's length, and how many operand bytes the core reads. -/

namespace Sys2Proof

/-- R112: the addressing modes. `int` is BRK's and COP's (signature byte), `imm8Skip` is WDM's IMM8, whose byte is
skipped (R345). A variable-width immediate is carried zero-extended. -/
inductive Mode where
  | imp
  | acc
  | stk
  | int (sig : Byte)
  | immM (v : Word)
  | immX (v : Word)
  | imm8 (v : Byte)
  | imm8Skip (v : Byte)
  | rel8 (r : Byte)
  | rel16 (r : Word)
  | blk (dst src : Byte)
  | pea (v : Word)
  | pei (d : Byte)
  | dp (d : Byte)
  | dpX (d : Byte)
  | dpY (d : Byte)
  | dpInd (d : Byte)
  | dpIndL (d : Byte)
  | dpXInd (d : Byte)
  | dpIndY (d : Byte)
  | dpIndLY (d : Byte)
  | sr (d : Byte)
  | srIndY (d : Byte)
  | abs (a : Word)
  | absX (a : Word)
  | absY (a : Word)
  | absInd (a : Word)
  | absXInd (a : Word)
  | absIndL (a : Word)
  | absL (l : Addr)
  | absLX (l : Addr)
deriving DecidableEq, Repr

/-- R112: the instruction's byte length, from its mode and the widths in force. -/
def Mode.len (m8 x8 : Bool) : Mode → Nat
  | .imp => 1
  | .acc => 1
  | .stk => 1
  | .int _ => 2
  | .immM _ => if m8 then 2 else 3
  | .immX _ => if x8 then 2 else 3
  | .imm8 _ => 2
  | .imm8Skip _ => 2
  | .rel8 _ => 2
  | .rel16 _ => 3
  | .blk _ _ => 3
  | .pea _ => 3
  | .pei _ => 2
  | .dp _ => 2
  | .dpX _ => 2
  | .dpY _ => 2
  | .dpInd _ => 2
  | .dpIndL _ => 2
  | .dpXInd _ => 2
  | .dpIndY _ => 2
  | .dpIndLY _ => 2
  | .sr _ => 2
  | .srIndY _ => 2
  | .abs _ => 3
  | .absX _ => 3
  | .absY _ => 3
  | .absInd _ => 3
  | .absXInd _ => 3
  | .absIndL _ => 3
  | .absL _ => 4
  | .absLX _ => 4

/-- How many operand bytes the core reads: all of them, except the signature byte of BRK and COP and WDM's byte,
which are skipped and not read (R131, R345, decision D36). -/
def Mode.bytesRead (m8 x8 : Bool) : Mode → Nat
  | .int _ => 0
  | .imm8Skip _ => 0
  | m => m.len m8 x8 - 1

/-- R472 item 2: the modes that pay the direct-page penalty. -/
def Mode.isDirectPage : Mode → Bool
  | .dp _ | .dpX _ | .dpY _ | .dpInd _ | .dpIndL _ | .dpXInd _ | .dpIndY _ | .dpIndLY _ | .pei _ => true
  | .imp | .acc | .stk | .int _ | .immM _ | .immX _ | .imm8 _ | .imm8Skip _ | .rel8 _ | .rel16 _ | .blk _ _
  | .pea _ | .sr _ | .srIndY _ | .abs _ | .absX _ | .absY _ | .absInd _ | .absXInd _ | .absIndL _ | .absL _
  | .absLX _ => false

end Sys2Proof
end

