-- ==== Sys2Proof/Machine/Bits.lean ====
section
/-! DEFINITION. Bit-field, sign-extension and byte-order helpers (R9, R10, R88). A value of either width is
carried in a `Word`; an 8-bit value is carried zero-extended. -/

namespace Sys2Proof

/-- Bits 7:0 of a word (`AL`, the low byte of R10). -/
def loByte (v : Word) : Byte := v.setWidth 8

/-- Bits 15:8 of a word (`AH`, the high byte of R10). -/
def hiByte (v : Word) : Byte := (v >>> 8).setWidth 8

/-- `{hi, lo}` of R9: the word whose high byte is `hi` and low byte `lo`. -/
def joinBytes (hi lo : Byte) : Word := hi ++ lo

/-- `zext_16` of R9. -/
def zext16 (b : Byte) : Word := b.setWidth 16

/-- `sext_16` of R9, for an 8-bit value. -/
def sext16 (b : Byte) : Word := b.signExtend 16

/-- The number of bits of a width. -/
def Width.bits : Width → Nat
  | .w8 => 8
  | .w16 => 16

/-- The number of bytes of a width (`w/8` of R157). -/
def Width.bytes : Width → Nat
  | .w8 => 1
  | .w16 => 2

/-- `v[w-1:0]`, zero-extended to 16 bits. -/
def trunc (w : Width) (v : Word) : Word :=
  match w with
  | .w8 => zext16 (loByte v)
  | .w16 => v

/-- `v[w-1]`, the top bit at width `w`. -/
def topBit (w : Width) (v : Word) : Bool :=
  match w with
  | .w8 => v.getLsbD 7
  | .w16 => v.getLsbD 15

/-- `v[w-2]`, the bit below the top bit at width `w` (BIT, R201). -/
def secondBit (w : Width) (v : Word) : Bool :=
  match w with
  | .w8 => v.getLsbD 6
  | .w16 => v.getLsbD 14

/-- `old` with bits w-1:0 replaced by those of `v`: the accumulator write `setA` of R24, which keeps the high
byte at width 8. -/
def writeKeep (w : Width) (v old : Word) : Word :=
  match w with
  | .w8 => joinBytes (hiByte old) (loByte v)
  | .w16 => v

/-- The width that an 8-bit condition (`m8`, `x8` of R23) selects. -/
def widthOf (narrow : Bool) : Width := if narrow then .w8 else .w16

end Sys2Proof
end

