-- ==== Sys2Proof/Syntax.lean ====
section
/-! DEFINITION. `Instr`: one constructor for each of the 256 rows of the opcode map (R117), named by the row's
mnemonic and addressing mode, with the operand that its bytes encode (R112). An immediate of the variable-width forms
(IMM_M, IMM_X) is carried in a 16-bit word, zero-extended when 8 bits are encoded. -/

namespace Sys2Proof

/-- R117: the 256 instructions of the opcode map: first those with an operand, then those without, each in the map's
order. -/
inductive Instr where
  /-- 0x00 `BRK #sig` (INT, R340). -/
  | brk (sig : Byte)
  /-- 0x01 `ORA (dp,X)` (DPXIND, R199). -/
  | oraDpXInd (d : Byte)
  /-- 0x02 `COP #sig` (INT, R341). -/
  | cop (sig : Byte)
  /-- 0x03 `ORA sr,S` (SR, R199). -/
  | oraSr (d : Byte)
  /-- 0x04 `TSB dp` (DP, R211). -/
  | tsbDp (d : Byte)
  /-- 0x05 `ORA dp` (DP, R199). -/
  | oraDp (d : Byte)
  /-- 0x06 `ASL dp` (DP, R230). -/
  | aslDp (d : Byte)
  /-- 0x07 `ORA [dp]` (DPINDL, R199). -/
  | oraDpIndL (d : Byte)
  /-- 0x09 `ORA #imm` (IMM_M, R199). -/
  | oraImm (v : Word)
  /-- 0x0C `TSB abs` (ABS, R211). -/
  | tsbAbs (a : Word)
  /-- 0x0D `ORA abs` (ABS, R199). -/
  | oraAbs (a : Word)
  /-- 0x0E `ASL abs` (ABS, R230). -/
  | aslAbs (a : Word)
  /-- 0x0F `ORA long` (ABSL, R199). -/
  | oraAbsL (l : Addr)
  /-- 0x10 `BPL rel8` (REL8, R246). -/
  | bpl (r : Byte)
  /-- 0x11 `ORA (dp),Y` (DPINDY, R199). -/
  | oraDpIndY (d : Byte)
  /-- 0x12 `ORA (dp)` (DPIND, R199). -/
  | oraDpInd (d : Byte)
  /-- 0x13 `ORA (sr,S),Y` (SRINDY, R199). -/
  | oraSrIndY (d : Byte)
  /-- 0x14 `TRB dp` (DP, R212). -/
  | trbDp (d : Byte)
  /-- 0x15 `ORA dp,X` (DPX, R199). -/
  | oraDpX (d : Byte)
  /-- 0x16 `ASL dp,X` (DPX, R230). -/
  | aslDpX (d : Byte)
  /-- 0x17 `ORA [dp],Y` (DPINDLY, R199). -/
  | oraDpIndLY (d : Byte)
  /-- 0x19 `ORA abs,Y` (ABSY, R199). -/
  | oraAbsY (a : Word)
  /-- 0x1C `TRB abs` (ABS, R212). -/
  | trbAbs (a : Word)
  /-- 0x1D `ORA abs,X` (ABSX, R199). -/
  | oraAbsX (a : Word)
  /-- 0x1E `ASL abs,X` (ABSX, R230). -/
  | aslAbsX (a : Word)
  /-- 0x1F `ORA long,X` (ABSLX, R199). -/
  | oraAbsLX (l : Addr)
  /-- 0x20 `JSR abs` (ABS, R256). -/
  | jsrAbs (a : Word)
  /-- 0x21 `AND (dp,X)` (DPXIND, R198). -/
  | andDpXInd (d : Byte)
  /-- 0x22 `JSL long` (ABSL, R258). -/
  | jslAbsL (l : Addr)
  /-- 0x23 `AND sr,S` (SR, R198). -/
  | andSr (d : Byte)
  /-- 0x24 `BIT dp` (DP, R201). -/
  | bitDp (d : Byte)
  /-- 0x25 `AND dp` (DP, R198). -/
  | andDp (d : Byte)
  /-- 0x26 `ROL dp` (DP, R232). -/
  | rolDp (d : Byte)
  /-- 0x27 `AND [dp]` (DPINDL, R198). -/
  | andDpIndL (d : Byte)
  /-- 0x29 `AND #imm` (IMM_M, R198). -/
  | andImm (v : Word)
  /-- 0x2C `BIT abs` (ABS, R201). -/
  | bitAbs (a : Word)
  /-- 0x2D `AND abs` (ABS, R198). -/
  | andAbs (a : Word)
  /-- 0x2E `ROL abs` (ABS, R232). -/
  | rolAbs (a : Word)
  /-- 0x2F `AND long` (ABSL, R198). -/
  | andAbsL (l : Addr)
  /-- 0x30 `BMI rel8` (REL8, R245). -/
  | bmi (r : Byte)
  /-- 0x31 `AND (dp),Y` (DPINDY, R198). -/
  | andDpIndY (d : Byte)
  /-- 0x32 `AND (dp)` (DPIND, R198). -/
  | andDpInd (d : Byte)
  /-- 0x33 `AND (sr,S),Y` (SRINDY, R198). -/
  | andSrIndY (d : Byte)
  /-- 0x34 `BIT dp,X` (DPX, R201). -/
  | bitDpX (d : Byte)
  /-- 0x35 `AND dp,X` (DPX, R198). -/
  | andDpX (d : Byte)
  /-- 0x36 `ROL dp,X` (DPX, R232). -/
  | rolDpX (d : Byte)
  /-- 0x37 `AND [dp],Y` (DPINDLY, R198). -/
  | andDpIndLY (d : Byte)
  /-- 0x39 `AND abs,Y` (ABSY, R198). -/
  | andAbsY (a : Word)
  /-- 0x3C `BIT abs,X` (ABSX, R201). -/
  | bitAbsX (a : Word)
  /-- 0x3D `AND abs,X` (ABSX, R198). -/
  | andAbsX (a : Word)
  /-- 0x3E `ROL abs,X` (ABSX, R232). -/
  | rolAbsX (a : Word)
  /-- 0x3F `AND long,X` (ABSLX, R198). -/
  | andAbsLX (l : Addr)
  /-- 0x41 `EOR (dp,X)` (DPXIND, R200). -/
  | eorDpXInd (d : Byte)
  /-- 0x42 `WDM #imm8` (IMM8, R345). -/
  | wdm (v : Byte)
  /-- 0x43 `EOR sr,S` (SR, R200). -/
  | eorSr (d : Byte)
  /-- 0x44 `MVP srcbk,dstbk` (BLK, R361). -/
  | mvp (dst : Byte) (src : Byte)
  /-- 0x45 `EOR dp` (DP, R200). -/
  | eorDp (d : Byte)
  /-- 0x46 `LSR dp` (DP, R231). -/
  | lsrDp (d : Byte)
  /-- 0x47 `EOR [dp]` (DPINDL, R200). -/
  | eorDpIndL (d : Byte)
  /-- 0x49 `EOR #imm` (IMM_M, R200). -/
  | eorImm (v : Word)
  /-- 0x4C `JMP abs` (ABS, R251). -/
  | jmpAbs (a : Word)
  /-- 0x4D `EOR abs` (ABS, R200). -/
  | eorAbs (a : Word)
  /-- 0x4E `LSR abs` (ABS, R231). -/
  | lsrAbs (a : Word)
  /-- 0x4F `EOR long` (ABSL, R200). -/
  | eorAbsL (l : Addr)
  /-- 0x50 `BVC rel8` (REL8, R247). -/
  | bvc (r : Byte)
  /-- 0x51 `EOR (dp),Y` (DPINDY, R200). -/
  | eorDpIndY (d : Byte)
  /-- 0x52 `EOR (dp)` (DPIND, R200). -/
  | eorDpInd (d : Byte)
  /-- 0x53 `EOR (sr,S),Y` (SRINDY, R200). -/
  | eorSrIndY (d : Byte)
  /-- 0x54 `MVN srcbk,dstbk` (BLK, R360). -/
  | mvn (dst : Byte) (src : Byte)
  /-- 0x55 `EOR dp,X` (DPX, R200). -/
  | eorDpX (d : Byte)
  /-- 0x56 `LSR dp,X` (DPX, R231). -/
  | lsrDpX (d : Byte)
  /-- 0x57 `EOR [dp],Y` (DPINDLY, R200). -/
  | eorDpIndLY (d : Byte)
  /-- 0x59 `EOR abs,Y` (ABSY, R200). -/
  | eorAbsY (a : Word)
  /-- 0x5C `JML long` (ABSL, R254). -/
  | jmlAbsL (l : Addr)
  /-- 0x5D `EOR abs,X` (ABSX, R200). -/
  | eorAbsX (a : Word)
  /-- 0x5E `LSR abs,X` (ABSX, R231). -/
  | lsrAbsX (a : Word)
  /-- 0x5F `EOR long,X` (ABSLX, R200). -/
  | eorAbsLX (l : Addr)
  /-- 0x61 `ADC (dp,X)` (DPXIND, R196). -/
  | adcDpXInd (d : Byte)
  /-- 0x62 `PER rel16` (REL16, R285). -/
  | per (r : Word)
  /-- 0x63 `ADC sr,S` (SR, R196). -/
  | adcSr (d : Byte)
  /-- 0x64 `STZ dp` (DP, R176). -/
  | stzDp (d : Byte)
  /-- 0x65 `ADC dp` (DP, R196). -/
  | adcDp (d : Byte)
  /-- 0x66 `ROR dp` (DP, R233). -/
  | rorDp (d : Byte)
  /-- 0x67 `ADC [dp]` (DPINDL, R196). -/
  | adcDpIndL (d : Byte)
  /-- 0x69 `ADC #imm` (IMM_M, R196). -/
  | adcImm (v : Word)
  /-- 0x6C `JMP (abs)` (ABSIND, R252). -/
  | jmpAbsInd (a : Word)
  /-- 0x6D `ADC abs` (ABS, R196). -/
  | adcAbs (a : Word)
  /-- 0x6E `ROR abs` (ABS, R233). -/
  | rorAbs (a : Word)
  /-- 0x6F `ADC long` (ABSL, R196). -/
  | adcAbsL (l : Addr)
  /-- 0x70 `BVS rel8` (REL8, R248). -/
  | bvs (r : Byte)
  /-- 0x71 `ADC (dp),Y` (DPINDY, R196). -/
  | adcDpIndY (d : Byte)
  /-- 0x72 `ADC (dp)` (DPIND, R196). -/
  | adcDpInd (d : Byte)
  /-- 0x73 `ADC (sr,S),Y` (SRINDY, R196). -/
  | adcSrIndY (d : Byte)
  /-- 0x74 `STZ dp,X` (DPX, R176). -/
  | stzDpX (d : Byte)
  /-- 0x75 `ADC dp,X` (DPX, R196). -/
  | adcDpX (d : Byte)
  /-- 0x76 `ROR dp,X` (DPX, R233). -/
  | rorDpX (d : Byte)
  /-- 0x77 `ADC [dp],Y` (DPINDLY, R196). -/
  | adcDpIndLY (d : Byte)
  /-- 0x79 `ADC abs,Y` (ABSY, R196). -/
  | adcAbsY (a : Word)
  /-- 0x7C `JMP (abs,X)` (ABSXIND, R253). -/
  | jmpAbsXInd (a : Word)
  /-- 0x7D `ADC abs,X` (ABSX, R196). -/
  | adcAbsX (a : Word)
  /-- 0x7E `ROR abs,X` (ABSX, R233). -/
  | rorAbsX (a : Word)
  /-- 0x7F `ADC long,X` (ABSLX, R196). -/
  | adcAbsLX (l : Addr)
  /-- 0x80 `BRA rel8` (REL8, R249). -/
  | bra (r : Byte)
  /-- 0x81 `STA (dp,X)` (DPXIND, R173). -/
  | staDpXInd (d : Byte)
  /-- 0x82 `BRL rel16` (REL16, R250). -/
  | brl (r : Word)
  /-- 0x83 `STA sr,S` (SR, R173). -/
  | staSr (d : Byte)
  /-- 0x84 `STY dp` (DP, R175). -/
  | styDp (d : Byte)
  /-- 0x85 `STA dp` (DP, R173). -/
  | staDp (d : Byte)
  /-- 0x86 `STX dp` (DP, R174). -/
  | stxDp (d : Byte)
  /-- 0x87 `STA [dp]` (DPINDL, R173). -/
  | staDpIndL (d : Byte)
  /-- 0x89 `BIT #imm` (IMM_M, R201). -/
  | bitImm (v : Word)
  /-- 0x8C `STY abs` (ABS, R175). -/
  | styAbs (a : Word)
  /-- 0x8D `STA abs` (ABS, R173). -/
  | staAbs (a : Word)
  /-- 0x8E `STX abs` (ABS, R174). -/
  | stxAbs (a : Word)
  /-- 0x8F `STA long` (ABSL, R173). -/
  | staAbsL (l : Addr)
  /-- 0x90 `BCC rel8` (REL8, R241). -/
  | bcc (r : Byte)
  /-- 0x91 `STA (dp),Y` (DPINDY, R173). -/
  | staDpIndY (d : Byte)
  /-- 0x92 `STA (dp)` (DPIND, R173). -/
  | staDpInd (d : Byte)
  /-- 0x93 `STA (sr,S),Y` (SRINDY, R173). -/
  | staSrIndY (d : Byte)
  /-- 0x94 `STY dp,X` (DPX, R175). -/
  | styDpX (d : Byte)
  /-- 0x95 `STA dp,X` (DPX, R173). -/
  | staDpX (d : Byte)
  /-- 0x96 `STX dp,Y` (DPY, R174). -/
  | stxDpY (d : Byte)
  /-- 0x97 `STA [dp],Y` (DPINDLY, R173). -/
  | staDpIndLY (d : Byte)
  /-- 0x99 `STA abs,Y` (ABSY, R173). -/
  | staAbsY (a : Word)
  /-- 0x9C `STZ abs` (ABS, R176). -/
  | stzAbs (a : Word)
  /-- 0x9D `STA abs,X` (ABSX, R173). -/
  | staAbsX (a : Word)
  /-- 0x9E `STZ abs,X` (ABSX, R176). -/
  | stzAbsX (a : Word)
  /-- 0x9F `STA long,X` (ABSLX, R173). -/
  | staAbsLX (l : Addr)
  /-- 0xA0 `LDY #imm` (IMM_X, R172). -/
  | ldyImm (v : Word)
  /-- 0xA1 `LDA (dp,X)` (DPXIND, R170). -/
  | ldaDpXInd (d : Byte)
  /-- 0xA2 `LDX #imm` (IMM_X, R171). -/
  | ldxImm (v : Word)
  /-- 0xA3 `LDA sr,S` (SR, R170). -/
  | ldaSr (d : Byte)
  /-- 0xA4 `LDY dp` (DP, R172). -/
  | ldyDp (d : Byte)
  /-- 0xA5 `LDA dp` (DP, R170). -/
  | ldaDp (d : Byte)
  /-- 0xA6 `LDX dp` (DP, R171). -/
  | ldxDp (d : Byte)
  /-- 0xA7 `LDA [dp]` (DPINDL, R170). -/
  | ldaDpIndL (d : Byte)
  /-- 0xA9 `LDA #imm` (IMM_M, R170). -/
  | ldaImm (v : Word)
  /-- 0xAC `LDY abs` (ABS, R172). -/
  | ldyAbs (a : Word)
  /-- 0xAD `LDA abs` (ABS, R170). -/
  | ldaAbs (a : Word)
  /-- 0xAE `LDX abs` (ABS, R171). -/
  | ldxAbs (a : Word)
  /-- 0xAF `LDA long` (ABSL, R170). -/
  | ldaAbsL (l : Addr)
  /-- 0xB0 `BCS rel8` (REL8, R242). -/
  | bcs (r : Byte)
  /-- 0xB1 `LDA (dp),Y` (DPINDY, R170). -/
  | ldaDpIndY (d : Byte)
  /-- 0xB2 `LDA (dp)` (DPIND, R170). -/
  | ldaDpInd (d : Byte)
  /-- 0xB3 `LDA (sr,S),Y` (SRINDY, R170). -/
  | ldaSrIndY (d : Byte)
  /-- 0xB4 `LDY dp,X` (DPX, R172). -/
  | ldyDpX (d : Byte)
  /-- 0xB5 `LDA dp,X` (DPX, R170). -/
  | ldaDpX (d : Byte)
  /-- 0xB6 `LDX dp,Y` (DPY, R171). -/
  | ldxDpY (d : Byte)
  /-- 0xB7 `LDA [dp],Y` (DPINDLY, R170). -/
  | ldaDpIndLY (d : Byte)
  /-- 0xB9 `LDA abs,Y` (ABSY, R170). -/
  | ldaAbsY (a : Word)
  /-- 0xBC `LDY abs,X` (ABSX, R172). -/
  | ldyAbsX (a : Word)
  /-- 0xBD `LDA abs,X` (ABSX, R170). -/
  | ldaAbsX (a : Word)
  /-- 0xBE `LDX abs,Y` (ABSY, R171). -/
  | ldxAbsY (a : Word)
  /-- 0xBF `LDA long,X` (ABSLX, R170). -/
  | ldaAbsLX (l : Addr)
  /-- 0xC0 `CPY #imm` (IMM_X, R204). -/
  | cpyImm (v : Word)
  /-- 0xC1 `CMP (dp,X)` (DPXIND, R202). -/
  | cmpDpXInd (d : Byte)
  /-- 0xC2 `REP #imm8` (IMM8, R327). -/
  | rep (v : Byte)
  /-- 0xC3 `CMP sr,S` (SR, R202). -/
  | cmpSr (d : Byte)
  /-- 0xC4 `CPY dp` (DP, R204). -/
  | cpyDp (d : Byte)
  /-- 0xC5 `CMP dp` (DP, R202). -/
  | cmpDp (d : Byte)
  /-- 0xC6 `DEC dp` (DP, R206). -/
  | decDp (d : Byte)
  /-- 0xC7 `CMP [dp]` (DPINDL, R202). -/
  | cmpDpIndL (d : Byte)
  /-- 0xC9 `CMP #imm` (IMM_M, R202). -/
  | cmpImm (v : Word)
  /-- 0xCC `CPY abs` (ABS, R204). -/
  | cpyAbs (a : Word)
  /-- 0xCD `CMP abs` (ABS, R202). -/
  | cmpAbs (a : Word)
  /-- 0xCE `DEC abs` (ABS, R206). -/
  | decAbs (a : Word)
  /-- 0xCF `CMP long` (ABSL, R202). -/
  | cmpAbsL (l : Addr)
  /-- 0xD0 `BNE rel8` (REL8, R244). -/
  | bne (r : Byte)
  /-- 0xD1 `CMP (dp),Y` (DPINDY, R202). -/
  | cmpDpIndY (d : Byte)
  /-- 0xD2 `CMP (dp)` (DPIND, R202). -/
  | cmpDpInd (d : Byte)
  /-- 0xD3 `CMP (sr,S),Y` (SRINDY, R202). -/
  | cmpSrIndY (d : Byte)
  /-- 0xD4 `PEI (dp)` (PEI, R284). -/
  | pei (d : Byte)
  /-- 0xD5 `CMP dp,X` (DPX, R202). -/
  | cmpDpX (d : Byte)
  /-- 0xD6 `DEC dp,X` (DPX, R206). -/
  | decDpX (d : Byte)
  /-- 0xD7 `CMP [dp],Y` (DPINDLY, R202). -/
  | cmpDpIndLY (d : Byte)
  /-- 0xD9 `CMP abs,Y` (ABSY, R202). -/
  | cmpAbsY (a : Word)
  /-- 0xDC `JML [abs]` (ABSINDL, R255). -/
  | jmlAbsIndL (a : Word)
  /-- 0xDD `CMP abs,X` (ABSX, R202). -/
  | cmpAbsX (a : Word)
  /-- 0xDE `DEC abs,X` (ABSX, R206). -/
  | decAbsX (a : Word)
  /-- 0xDF `CMP long,X` (ABSLX, R202). -/
  | cmpAbsLX (l : Addr)
  /-- 0xE0 `CPX #imm` (IMM_X, R203). -/
  | cpxImm (v : Word)
  /-- 0xE1 `SBC (dp,X)` (DPXIND, R197). -/
  | sbcDpXInd (d : Byte)
  /-- 0xE2 `SEP #imm8` (IMM8, R328). -/
  | sep (v : Byte)
  /-- 0xE3 `SBC sr,S` (SR, R197). -/
  | sbcSr (d : Byte)
  /-- 0xE4 `CPX dp` (DP, R203). -/
  | cpxDp (d : Byte)
  /-- 0xE5 `SBC dp` (DP, R197). -/
  | sbcDp (d : Byte)
  /-- 0xE6 `INC dp` (DP, R205). -/
  | incDp (d : Byte)
  /-- 0xE7 `SBC [dp]` (DPINDL, R197). -/
  | sbcDpIndL (d : Byte)
  /-- 0xE9 `SBC #imm` (IMM_M, R197). -/
  | sbcImm (v : Word)
  /-- 0xEC `CPX abs` (ABS, R203). -/
  | cpxAbs (a : Word)
  /-- 0xED `SBC abs` (ABS, R197). -/
  | sbcAbs (a : Word)
  /-- 0xEE `INC abs` (ABS, R205). -/
  | incAbs (a : Word)
  /-- 0xEF `SBC long` (ABSL, R197). -/
  | sbcAbsL (l : Addr)
  /-- 0xF0 `BEQ rel8` (REL8, R243). -/
  | beq (r : Byte)
  /-- 0xF1 `SBC (dp),Y` (DPINDY, R197). -/
  | sbcDpIndY (d : Byte)
  /-- 0xF2 `SBC (dp)` (DPIND, R197). -/
  | sbcDpInd (d : Byte)
  /-- 0xF3 `SBC (sr,S),Y` (SRINDY, R197). -/
  | sbcSrIndY (d : Byte)
  /-- 0xF4 `PEA #imm16` (PEA, R283). -/
  | pea (v : Word)
  /-- 0xF5 `SBC dp,X` (DPX, R197). -/
  | sbcDpX (d : Byte)
  /-- 0xF6 `INC dp,X` (DPX, R205). -/
  | incDpX (d : Byte)
  /-- 0xF7 `SBC [dp],Y` (DPINDLY, R197). -/
  | sbcDpIndLY (d : Byte)
  /-- 0xF9 `SBC abs,Y` (ABSY, R197). -/
  | sbcAbsY (a : Word)
  /-- 0xFC `JSR (abs,X)` (ABSXIND, R257). -/
  | jsrAbsXInd (a : Word)
  /-- 0xFD `SBC abs,X` (ABSX, R197). -/
  | sbcAbsX (a : Word)
  /-- 0xFE `INC abs,X` (ABSX, R205). -/
  | incAbsX (a : Word)
  /-- 0xFF `SBC long,X` (ABSLX, R197). -/
  | sbcAbsLX (l : Addr)
  /-- 0x08 `PHP` (STK, R273). -/
  | php
  /-- 0x0A `ASL A` (ACC, R230). -/
  | aslA
  /-- 0x0B `PHD` (STK, R275). -/
  | phd
  /-- 0x18 `CLC` (IMP, R320). -/
  | clc
  /-- 0x1A `INC A` (ACC, R205). -/
  | incA
  /-- 0x1B `TCS` (IMP, R310). -/
  | tcs
  /-- 0x28 `PLP` (STK, R280). -/
  | plp
  /-- 0x2A `ROL A` (ACC, R232). -/
  | rolA
  /-- 0x2B `PLD` (STK, R282). -/
  | pld
  /-- 0x38 `SEC` (IMP, R321). -/
  | sec
  /-- 0x3A `DEC A` (ACC, R206). -/
  | decA
  /-- 0x3B `TSC` (IMP, R311). -/
  | tsc
  /-- 0x40 `RTI` (STK, R342). -/
  | rti
  /-- 0x48 `PHA` (STK, R270). -/
  | pha
  /-- 0x4A `LSR A` (ACC, R231). -/
  | lsrA
  /-- 0x4B `PHK` (STK, R276). -/
  | phk
  /-- 0x58 `CLI` (IMP, R322). -/
  | cli
  /-- 0x5A `PHY` (STK, R272). -/
  | phy
  /-- 0x5B `TCD` (IMP, R308). -/
  | tcd
  /-- 0x60 `RTS` (STK, R259). -/
  | rts
  /-- 0x68 `PLA` (STK, R277). -/
  | pla
  /-- 0x6A `ROR A` (ACC, R233). -/
  | rorA
  /-- 0x6B `RTL` (STK, R260). -/
  | rtl
  /-- 0x78 `SEI` (IMP, R323). -/
  | sei
  /-- 0x7A `PLY` (STK, R279). -/
  | ply
  /-- 0x7B `TDC` (IMP, R309). -/
  | tdc
  /-- 0x88 `DEY` (IMP, R210). -/
  | dey
  /-- 0x8A `TXA` (IMP, R302). -/
  | txa
  /-- 0x8B `PHB` (STK, R274). -/
  | phb
  /-- 0x98 `TYA` (IMP, R303). -/
  | tya
  /-- 0x9A `TXS` (IMP, R305). -/
  | txs
  /-- 0x9B `TXY` (IMP, R306). -/
  | txy
  /-- 0xA8 `TAY` (IMP, R301). -/
  | tay
  /-- 0xAA `TAX` (IMP, R300). -/
  | tax
  /-- 0xAB `PLB` (STK, R281). -/
  | plb
  /-- 0xB8 `CLV` (IMP, R326). -/
  | clv
  /-- 0xBA `TSX` (IMP, R304). -/
  | tsx
  /-- 0xBB `TYX` (IMP, R307). -/
  | tyx
  /-- 0xC8 `INY` (IMP, R208). -/
  | iny
  /-- 0xCA `DEX` (IMP, R209). -/
  | dex
  /-- 0xCB `WAI` (IMP, R343). -/
  | wai
  /-- 0xD8 `CLD` (IMP, R324). -/
  | cld
  /-- 0xDA `PHX` (STK, R271). -/
  | phx
  /-- 0xDB `STP` (IMP, R344). -/
  | stp
  /-- 0xE8 `INX` (IMP, R207). -/
  | inx
  /-- 0xEA `NOP` (IMP, R346). -/
  | nop
  /-- 0xEB `XBA` (IMP, R312). -/
  | xba
  /-- 0xF8 `SED` (IMP, R325). -/
  | sed
  /-- 0xFA `PLX` (STK, R278). -/
  | plx
  /-- 0xFB `XCE` (IMP, R329). -/
  | xce
deriving DecidableEq, Repr

end Sys2Proof
end

