-- ==== Sys2Proof/WellFormed.lean ====
section
/-! DEFINITION. Which instruction terms are encodable at given widths: the immediate of an IMM_M form fits the
accumulator width, that of an IMM_X form the index width (R113). Every other operand fits its bytes by its type. -/

namespace Sys2Proof

/-- A variable-width immediate fits: with an 8-bit width its high byte is zero. -/
def fitsImm (narrow : Bool) (v : Word) : Bool := !narrow || hiByte v == 0#8

/-- R113: `i` can be encoded when the effective 8-bit conditions are `m8` and `x8`. -/
def WellFormed (m8 x8 : Bool) : Instr → Bool
  | .oraImm v => fitsImm m8 v
  | .andImm v => fitsImm m8 v
  | .eorImm v => fitsImm m8 v
  | .adcImm v => fitsImm m8 v
  | .bitImm v => fitsImm m8 v
  | .ldyImm v => fitsImm x8 v
  | .ldxImm v => fitsImm x8 v
  | .ldaImm v => fitsImm m8 v
  | .cpyImm v => fitsImm x8 v
  | .cmpImm v => fitsImm m8 v
  | .cpxImm v => fitsImm x8 v
  | .sbcImm v => fitsImm m8 v
  | .brk _ | .oraDpXInd _ | .cop _ | .oraSr _ | .tsbDp _ | .oraDp _ | .aslDp _ | .oraDpIndL _ | .php | .aslA
  | .phd | .tsbAbs _ | .oraAbs _ | .aslAbs _ | .oraAbsL _ | .bpl _ | .oraDpIndY _ | .oraDpInd _ | .oraSrIndY _
  | .trbDp _ | .oraDpX _ | .aslDpX _ | .oraDpIndLY _ | .clc | .oraAbsY _ | .incA | .tcs | .trbAbs _ | .oraAbsX _
  | .aslAbsX _ | .oraAbsLX _ | .jsrAbs _ | .andDpXInd _ | .jslAbsL _ | .andSr _ | .bitDp _ | .andDp _ | .rolDp _
  | .andDpIndL _ | .plp | .rolA | .pld | .bitAbs _ | .andAbs _ | .rolAbs _ | .andAbsL _ | .bmi _ | .andDpIndY _
  | .andDpInd _ | .andSrIndY _ | .bitDpX _ | .andDpX _ | .rolDpX _ | .andDpIndLY _ | .sec | .andAbsY _ | .decA
  | .tsc | .bitAbsX _ | .andAbsX _ | .rolAbsX _ | .andAbsLX _ | .rti | .eorDpXInd _ | .wdm _ | .eorSr _
  | .mvp _ _ | .eorDp _ | .lsrDp _ | .eorDpIndL _ | .pha | .lsrA | .phk | .jmpAbs _ | .eorAbs _ | .lsrAbs _
  | .eorAbsL _ | .bvc _ | .eorDpIndY _ | .eorDpInd _ | .eorSrIndY _ | .mvn _ _ | .eorDpX _ | .lsrDpX _
  | .eorDpIndLY _ | .cli | .eorAbsY _ | .phy | .tcd | .jmlAbsL _ | .eorAbsX _ | .lsrAbsX _ | .eorAbsLX _ | .rts
  | .adcDpXInd _ | .per _ | .adcSr _ | .stzDp _ | .adcDp _ | .rorDp _ | .adcDpIndL _ | .pla | .rorA | .rtl
  | .jmpAbsInd _ | .adcAbs _ | .rorAbs _ | .adcAbsL _ | .bvs _ | .adcDpIndY _ | .adcDpInd _ | .adcSrIndY _
  | .stzDpX _ | .adcDpX _ | .rorDpX _ | .adcDpIndLY _ | .sei | .adcAbsY _ | .ply | .tdc | .jmpAbsXInd _
  | .adcAbsX _ | .rorAbsX _ | .adcAbsLX _ | .bra _ | .staDpXInd _ | .brl _ | .staSr _ | .styDp _ | .staDp _
  | .stxDp _ | .staDpIndL _ | .dey | .txa | .phb | .styAbs _ | .staAbs _ | .stxAbs _ | .staAbsL _ | .bcc _
  | .staDpIndY _ | .staDpInd _ | .staSrIndY _ | .styDpX _ | .staDpX _ | .stxDpY _ | .staDpIndLY _ | .tya
  | .staAbsY _ | .txs | .txy | .stzAbs _ | .staAbsX _ | .stzAbsX _ | .staAbsLX _ | .ldaDpXInd _ | .ldaSr _
  | .ldyDp _ | .ldaDp _ | .ldxDp _ | .ldaDpIndL _ | .tay | .tax | .plb | .ldyAbs _ | .ldaAbs _ | .ldxAbs _
  | .ldaAbsL _ | .bcs _ | .ldaDpIndY _ | .ldaDpInd _ | .ldaSrIndY _ | .ldyDpX _ | .ldaDpX _ | .ldxDpY _
  | .ldaDpIndLY _ | .clv | .ldaAbsY _ | .tsx | .tyx | .ldyAbsX _ | .ldaAbsX _ | .ldxAbsY _ | .ldaAbsLX _
  | .cmpDpXInd _ | .rep _ | .cmpSr _ | .cpyDp _ | .cmpDp _ | .decDp _ | .cmpDpIndL _ | .iny | .dex | .wai
  | .cpyAbs _ | .cmpAbs _ | .decAbs _ | .cmpAbsL _ | .bne _ | .cmpDpIndY _ | .cmpDpInd _ | .cmpSrIndY _ | .pei _
  | .cmpDpX _ | .decDpX _ | .cmpDpIndLY _ | .cld | .cmpAbsY _ | .phx | .stp | .jmlAbsIndL _ | .cmpAbsX _
  | .decAbsX _ | .cmpAbsLX _ | .sbcDpXInd _ | .sep _ | .sbcSr _ | .cpxDp _ | .sbcDp _ | .incDp _ | .sbcDpIndL _
  | .inx | .nop | .xba | .cpxAbs _ | .sbcAbs _ | .incAbs _ | .sbcAbsL _ | .beq _ | .sbcDpIndY _ | .sbcDpInd _
  | .sbcSrIndY _ | .pea _ | .sbcDpX _ | .incDpX _ | .sbcDpIndLY _ | .sed | .sbcAbsY _ | .plx | .xce
  | .jsrAbsXInd _ | .sbcAbsX _ | .incAbsX _ | .sbcAbsLX _ => true

end Sys2Proof
end

