-- ==== Sys2Proof/Decode.lean ====
section
/-! DEFINITION. The decoder (the opcode map of R117 row by row, operand bytes little-endian, R111), total on any list of
bytes and rejecting by name, and the encoder written from the same map. -/

namespace Sys2Proof

/-- Why `decode` gives no instruction: there is no opcode byte, or fewer bytes than the opcode's length (R112). -/
inductive DecodeError where
  | noOpcode
  | truncated (opcode : Byte)
deriving DecidableEq, Repr

/-! The opcode map (R117): one row per high nibble, sixteen instructions each, with the operand bytes `b1 b2 b3`
(byte 1 is the low byte; the bank of a 24-bit operand is byte 3; byte 1 of a block move is the destination bank). -/

/-- R117, row 0x. -/
def opcodeRow0 (b1 b2 b3 : Byte) : List Instr :=
  [.brk b1, .oraDpXInd b1, .cop b1, .oraSr b1,
   .tsbDp b1, .oraDp b1, .aslDp b1, .oraDpIndL b1,
   .php, .oraImm (joinBytes b2 b1), .aslA, .phd,
   .tsbAbs (joinBytes b2 b1), .oraAbs (joinBytes b2 b1), .aslAbs (joinBytes b2 b1), .oraAbsL ⟨b3, joinBytes b2 b1⟩]

/-- R117, row 1x. -/
def opcodeRow1 (b1 b2 b3 : Byte) : List Instr :=
  [.bpl b1, .oraDpIndY b1, .oraDpInd b1, .oraSrIndY b1,
   .trbDp b1, .oraDpX b1, .aslDpX b1, .oraDpIndLY b1,
   .clc, .oraAbsY (joinBytes b2 b1), .incA, .tcs,
   .trbAbs (joinBytes b2 b1), .oraAbsX (joinBytes b2 b1), .aslAbsX (joinBytes b2 b1), .oraAbsLX ⟨b3, joinBytes b2 b1⟩]

/-- R117, row 2x. -/
def opcodeRow2 (b1 b2 b3 : Byte) : List Instr :=
  [.jsrAbs (joinBytes b2 b1), .andDpXInd b1, .jslAbsL ⟨b3, joinBytes b2 b1⟩, .andSr b1,
   .bitDp b1, .andDp b1, .rolDp b1, .andDpIndL b1,
   .plp, .andImm (joinBytes b2 b1), .rolA, .pld,
   .bitAbs (joinBytes b2 b1), .andAbs (joinBytes b2 b1), .rolAbs (joinBytes b2 b1), .andAbsL ⟨b3, joinBytes b2 b1⟩]

/-- R117, row 3x. -/
def opcodeRow3 (b1 b2 b3 : Byte) : List Instr :=
  [.bmi b1, .andDpIndY b1, .andDpInd b1, .andSrIndY b1,
   .bitDpX b1, .andDpX b1, .rolDpX b1, .andDpIndLY b1,
   .sec, .andAbsY (joinBytes b2 b1), .decA, .tsc,
   .bitAbsX (joinBytes b2 b1), .andAbsX (joinBytes b2 b1), .rolAbsX (joinBytes b2 b1), .andAbsLX ⟨b3, joinBytes b2 b1⟩]

/-- R117, row 4x. -/
def opcodeRow4 (b1 b2 b3 : Byte) : List Instr :=
  [.rti, .eorDpXInd b1, .wdm b1, .eorSr b1,
   .mvp b1 b2, .eorDp b1, .lsrDp b1, .eorDpIndL b1,
   .pha, .eorImm (joinBytes b2 b1), .lsrA, .phk,
   .jmpAbs (joinBytes b2 b1), .eorAbs (joinBytes b2 b1), .lsrAbs (joinBytes b2 b1), .eorAbsL ⟨b3, joinBytes b2 b1⟩]

/-- R117, row 5x. -/
def opcodeRow5 (b1 b2 b3 : Byte) : List Instr :=
  [.bvc b1, .eorDpIndY b1, .eorDpInd b1, .eorSrIndY b1,
   .mvn b1 b2, .eorDpX b1, .lsrDpX b1, .eorDpIndLY b1,
   .cli, .eorAbsY (joinBytes b2 b1), .phy, .tcd,
   .jmlAbsL ⟨b3, joinBytes b2 b1⟩, .eorAbsX (joinBytes b2 b1), .lsrAbsX (joinBytes b2 b1), .eorAbsLX ⟨b3, joinBytes b2 b1⟩]

/-- R117, row 6x. -/
def opcodeRow6 (b1 b2 b3 : Byte) : List Instr :=
  [.rts, .adcDpXInd b1, .per (joinBytes b2 b1), .adcSr b1,
   .stzDp b1, .adcDp b1, .rorDp b1, .adcDpIndL b1,
   .pla, .adcImm (joinBytes b2 b1), .rorA, .rtl,
   .jmpAbsInd (joinBytes b2 b1), .adcAbs (joinBytes b2 b1), .rorAbs (joinBytes b2 b1), .adcAbsL ⟨b3, joinBytes b2 b1⟩]

/-- R117, row 7x. -/
def opcodeRow7 (b1 b2 b3 : Byte) : List Instr :=
  [.bvs b1, .adcDpIndY b1, .adcDpInd b1, .adcSrIndY b1,
   .stzDpX b1, .adcDpX b1, .rorDpX b1, .adcDpIndLY b1,
   .sei, .adcAbsY (joinBytes b2 b1), .ply, .tdc,
   .jmpAbsXInd (joinBytes b2 b1), .adcAbsX (joinBytes b2 b1), .rorAbsX (joinBytes b2 b1), .adcAbsLX ⟨b3, joinBytes b2 b1⟩]

/-- R117, row 8x. -/
def opcodeRow8 (b1 b2 b3 : Byte) : List Instr :=
  [.bra b1, .staDpXInd b1, .brl (joinBytes b2 b1), .staSr b1,
   .styDp b1, .staDp b1, .stxDp b1, .staDpIndL b1,
   .dey, .bitImm (joinBytes b2 b1), .txa, .phb,
   .styAbs (joinBytes b2 b1), .staAbs (joinBytes b2 b1), .stxAbs (joinBytes b2 b1), .staAbsL ⟨b3, joinBytes b2 b1⟩]

/-- R117, row 9x. -/
def opcodeRow9 (b1 b2 b3 : Byte) : List Instr :=
  [.bcc b1, .staDpIndY b1, .staDpInd b1, .staSrIndY b1,
   .styDpX b1, .staDpX b1, .stxDpY b1, .staDpIndLY b1,
   .tya, .staAbsY (joinBytes b2 b1), .txs, .txy,
   .stzAbs (joinBytes b2 b1), .staAbsX (joinBytes b2 b1), .stzAbsX (joinBytes b2 b1), .staAbsLX ⟨b3, joinBytes b2 b1⟩]

/-- R117, row Ax. -/
def opcodeRowA (b1 b2 b3 : Byte) : List Instr :=
  [.ldyImm (joinBytes b2 b1), .ldaDpXInd b1, .ldxImm (joinBytes b2 b1), .ldaSr b1,
   .ldyDp b1, .ldaDp b1, .ldxDp b1, .ldaDpIndL b1,
   .tay, .ldaImm (joinBytes b2 b1), .tax, .plb,
   .ldyAbs (joinBytes b2 b1), .ldaAbs (joinBytes b2 b1), .ldxAbs (joinBytes b2 b1), .ldaAbsL ⟨b3, joinBytes b2 b1⟩]

/-- R117, row Bx. -/
def opcodeRowB (b1 b2 b3 : Byte) : List Instr :=
  [.bcs b1, .ldaDpIndY b1, .ldaDpInd b1, .ldaSrIndY b1,
   .ldyDpX b1, .ldaDpX b1, .ldxDpY b1, .ldaDpIndLY b1,
   .clv, .ldaAbsY (joinBytes b2 b1), .tsx, .tyx,
   .ldyAbsX (joinBytes b2 b1), .ldaAbsX (joinBytes b2 b1), .ldxAbsY (joinBytes b2 b1), .ldaAbsLX ⟨b3, joinBytes b2 b1⟩]

/-- R117, row Cx. -/
def opcodeRowC (b1 b2 b3 : Byte) : List Instr :=
  [.cpyImm (joinBytes b2 b1), .cmpDpXInd b1, .rep b1, .cmpSr b1,
   .cpyDp b1, .cmpDp b1, .decDp b1, .cmpDpIndL b1,
   .iny, .cmpImm (joinBytes b2 b1), .dex, .wai,
   .cpyAbs (joinBytes b2 b1), .cmpAbs (joinBytes b2 b1), .decAbs (joinBytes b2 b1), .cmpAbsL ⟨b3, joinBytes b2 b1⟩]

/-- R117, row Dx. -/
def opcodeRowD (b1 b2 b3 : Byte) : List Instr :=
  [.bne b1, .cmpDpIndY b1, .cmpDpInd b1, .cmpSrIndY b1,
   .pei b1, .cmpDpX b1, .decDpX b1, .cmpDpIndLY b1,
   .cld, .cmpAbsY (joinBytes b2 b1), .phx, .stp,
   .jmlAbsIndL (joinBytes b2 b1), .cmpAbsX (joinBytes b2 b1), .decAbsX (joinBytes b2 b1), .cmpAbsLX ⟨b3, joinBytes b2 b1⟩]

/-- R117, row Ex. -/
def opcodeRowE (b1 b2 b3 : Byte) : List Instr :=
  [.cpxImm (joinBytes b2 b1), .sbcDpXInd b1, .sep b1, .sbcSr b1,
   .cpxDp b1, .sbcDp b1, .incDp b1, .sbcDpIndL b1,
   .inx, .sbcImm (joinBytes b2 b1), .nop, .xba,
   .cpxAbs (joinBytes b2 b1), .sbcAbs (joinBytes b2 b1), .incAbs (joinBytes b2 b1), .sbcAbsL ⟨b3, joinBytes b2 b1⟩]

/-- R117, row Fx. -/
def opcodeRowF (b1 b2 b3 : Byte) : List Instr :=
  [.beq b1, .sbcDpIndY b1, .sbcDpInd b1, .sbcSrIndY b1,
   .pea (joinBytes b2 b1), .sbcDpX b1, .incDpX b1, .sbcDpIndLY b1,
   .sed, .sbcAbsY (joinBytes b2 b1), .plx, .xce,
   .jsrAbsXInd (joinBytes b2 b1), .sbcAbsX (joinBytes b2 b1), .incAbsX (joinBytes b2 b1), .sbcAbsLX ⟨b3, joinBytes b2 b1⟩]

/-- The row of the opcode map for a high nibble. -/
def opcodeRow (h : Nat) (b1 b2 b3 : Byte) : List Instr :=
  match h with
  | 0 => opcodeRow0 b1 b2 b3
  | 1 => opcodeRow1 b1 b2 b3
  | 2 => opcodeRow2 b1 b2 b3
  | 3 => opcodeRow3 b1 b2 b3
  | 4 => opcodeRow4 b1 b2 b3
  | 5 => opcodeRow5 b1 b2 b3
  | 6 => opcodeRow6 b1 b2 b3
  | 7 => opcodeRow7 b1 b2 b3
  | 8 => opcodeRow8 b1 b2 b3
  | 9 => opcodeRow9 b1 b2 b3
  | 10 => opcodeRowA b1 b2 b3
  | 11 => opcodeRowB b1 b2 b3
  | 12 => opcodeRowC b1 b2 b3
  | 13 => opcodeRowD b1 b2 b3
  | 14 => opcodeRowE b1 b2 b3
  | _ => opcodeRowF b1 b2 b3

/-- R110: the opcode byte alone selects the instruction; the operand bytes fill its operand. Every one of the 256
opcodes has a slot (R119), so the list default is never taken. -/
def instrOf (op b1 b2 b3 : Byte) : Instr :=
  (opcodeRow (op.toNat / 16) b1 b2 b3).getD (op.toNat % 16) .nop

/-- The addressing mode of an instruction, with its operand (R117). -/
def Instr.mode : Instr → Mode
  | .brk sig => .int sig
  | .oraDpXInd d => .dpXInd d
  | .cop sig => .int sig
  | .oraSr d => .sr d
  | .tsbDp d => .dp d
  | .oraDp d => .dp d
  | .aslDp d => .dp d
  | .oraDpIndL d => .dpIndL d
  | .php => .stk
  | .oraImm v => .immM v
  | .aslA => .acc
  | .phd => .stk
  | .tsbAbs a => .abs a
  | .oraAbs a => .abs a
  | .aslAbs a => .abs a
  | .oraAbsL l => .absL l
  | .bpl r => .rel8 r
  | .oraDpIndY d => .dpIndY d
  | .oraDpInd d => .dpInd d
  | .oraSrIndY d => .srIndY d
  | .trbDp d => .dp d
  | .oraDpX d => .dpX d
  | .aslDpX d => .dpX d
  | .oraDpIndLY d => .dpIndLY d
  | .clc => .imp
  | .oraAbsY a => .absY a
  | .incA => .acc
  | .tcs => .imp
  | .trbAbs a => .abs a
  | .oraAbsX a => .absX a
  | .aslAbsX a => .absX a
  | .oraAbsLX l => .absLX l
  | .jsrAbs a => .abs a
  | .andDpXInd d => .dpXInd d
  | .jslAbsL l => .absL l
  | .andSr d => .sr d
  | .bitDp d => .dp d
  | .andDp d => .dp d
  | .rolDp d => .dp d
  | .andDpIndL d => .dpIndL d
  | .plp => .stk
  | .andImm v => .immM v
  | .rolA => .acc
  | .pld => .stk
  | .bitAbs a => .abs a
  | .andAbs a => .abs a
  | .rolAbs a => .abs a
  | .andAbsL l => .absL l
  | .bmi r => .rel8 r
  | .andDpIndY d => .dpIndY d
  | .andDpInd d => .dpInd d
  | .andSrIndY d => .srIndY d
  | .bitDpX d => .dpX d
  | .andDpX d => .dpX d
  | .rolDpX d => .dpX d
  | .andDpIndLY d => .dpIndLY d
  | .sec => .imp
  | .andAbsY a => .absY a
  | .decA => .acc
  | .tsc => .imp
  | .bitAbsX a => .absX a
  | .andAbsX a => .absX a
  | .rolAbsX a => .absX a
  | .andAbsLX l => .absLX l
  | .rti => .stk
  | .eorDpXInd d => .dpXInd d
  | .wdm v => .imm8Skip v
  | .eorSr d => .sr d
  | .mvp dst src => .blk dst src
  | .eorDp d => .dp d
  | .lsrDp d => .dp d
  | .eorDpIndL d => .dpIndL d
  | .pha => .stk
  | .eorImm v => .immM v
  | .lsrA => .acc
  | .phk => .stk
  | .jmpAbs a => .abs a
  | .eorAbs a => .abs a
  | .lsrAbs a => .abs a
  | .eorAbsL l => .absL l
  | .bvc r => .rel8 r
  | .eorDpIndY d => .dpIndY d
  | .eorDpInd d => .dpInd d
  | .eorSrIndY d => .srIndY d
  | .mvn dst src => .blk dst src
  | .eorDpX d => .dpX d
  | .lsrDpX d => .dpX d
  | .eorDpIndLY d => .dpIndLY d
  | .cli => .imp
  | .eorAbsY a => .absY a
  | .phy => .stk
  | .tcd => .imp
  | .jmlAbsL l => .absL l
  | .eorAbsX a => .absX a
  | .lsrAbsX a => .absX a
  | .eorAbsLX l => .absLX l
  | .rts => .stk
  | .adcDpXInd d => .dpXInd d
  | .per r => .rel16 r
  | .adcSr d => .sr d
  | .stzDp d => .dp d
  | .adcDp d => .dp d
  | .rorDp d => .dp d
  | .adcDpIndL d => .dpIndL d
  | .pla => .stk
  | .adcImm v => .immM v
  | .rorA => .acc
  | .rtl => .stk
  | .jmpAbsInd a => .absInd a
  | .adcAbs a => .abs a
  | .rorAbs a => .abs a
  | .adcAbsL l => .absL l
  | .bvs r => .rel8 r
  | .adcDpIndY d => .dpIndY d
  | .adcDpInd d => .dpInd d
  | .adcSrIndY d => .srIndY d
  | .stzDpX d => .dpX d
  | .adcDpX d => .dpX d
  | .rorDpX d => .dpX d
  | .adcDpIndLY d => .dpIndLY d
  | .sei => .imp
  | .adcAbsY a => .absY a
  | .ply => .stk
  | .tdc => .imp
  | .jmpAbsXInd a => .absXInd a
  | .adcAbsX a => .absX a
  | .rorAbsX a => .absX a
  | .adcAbsLX l => .absLX l
  | .bra r => .rel8 r
  | .staDpXInd d => .dpXInd d
  | .brl r => .rel16 r
  | .staSr d => .sr d
  | .styDp d => .dp d
  | .staDp d => .dp d
  | .stxDp d => .dp d
  | .staDpIndL d => .dpIndL d
  | .dey => .imp
  | .bitImm v => .immM v
  | .txa => .imp
  | .phb => .stk
  | .styAbs a => .abs a
  | .staAbs a => .abs a
  | .stxAbs a => .abs a
  | .staAbsL l => .absL l
  | .bcc r => .rel8 r
  | .staDpIndY d => .dpIndY d
  | .staDpInd d => .dpInd d
  | .staSrIndY d => .srIndY d
  | .styDpX d => .dpX d
  | .staDpX d => .dpX d
  | .stxDpY d => .dpY d
  | .staDpIndLY d => .dpIndLY d
  | .tya => .imp
  | .staAbsY a => .absY a
  | .txs => .imp
  | .txy => .imp
  | .stzAbs a => .abs a
  | .staAbsX a => .absX a
  | .stzAbsX a => .absX a
  | .staAbsLX l => .absLX l
  | .ldyImm v => .immX v
  | .ldaDpXInd d => .dpXInd d
  | .ldxImm v => .immX v
  | .ldaSr d => .sr d
  | .ldyDp d => .dp d
  | .ldaDp d => .dp d
  | .ldxDp d => .dp d
  | .ldaDpIndL d => .dpIndL d
  | .tay => .imp
  | .ldaImm v => .immM v
  | .tax => .imp
  | .plb => .stk
  | .ldyAbs a => .abs a
  | .ldaAbs a => .abs a
  | .ldxAbs a => .abs a
  | .ldaAbsL l => .absL l
  | .bcs r => .rel8 r
  | .ldaDpIndY d => .dpIndY d
  | .ldaDpInd d => .dpInd d
  | .ldaSrIndY d => .srIndY d
  | .ldyDpX d => .dpX d
  | .ldaDpX d => .dpX d
  | .ldxDpY d => .dpY d
  | .ldaDpIndLY d => .dpIndLY d
  | .clv => .imp
  | .ldaAbsY a => .absY a
  | .tsx => .imp
  | .tyx => .imp
  | .ldyAbsX a => .absX a
  | .ldaAbsX a => .absX a
  | .ldxAbsY a => .absY a
  | .ldaAbsLX l => .absLX l
  | .cpyImm v => .immX v
  | .cmpDpXInd d => .dpXInd d
  | .rep v => .imm8 v
  | .cmpSr d => .sr d
  | .cpyDp d => .dp d
  | .cmpDp d => .dp d
  | .decDp d => .dp d
  | .cmpDpIndL d => .dpIndL d
  | .iny => .imp
  | .cmpImm v => .immM v
  | .dex => .imp
  | .wai => .imp
  | .cpyAbs a => .abs a
  | .cmpAbs a => .abs a
  | .decAbs a => .abs a
  | .cmpAbsL l => .absL l
  | .bne r => .rel8 r
  | .cmpDpIndY d => .dpIndY d
  | .cmpDpInd d => .dpInd d
  | .cmpSrIndY d => .srIndY d
  | .pei d => .pei d
  | .cmpDpX d => .dpX d
  | .decDpX d => .dpX d
  | .cmpDpIndLY d => .dpIndLY d
  | .cld => .imp
  | .cmpAbsY a => .absY a
  | .phx => .stk
  | .stp => .imp
  | .jmlAbsIndL a => .absIndL a
  | .cmpAbsX a => .absX a
  | .decAbsX a => .absX a
  | .cmpAbsLX l => .absLX l
  | .cpxImm v => .immX v
  | .sbcDpXInd d => .dpXInd d
  | .sep v => .imm8 v
  | .sbcSr d => .sr d
  | .cpxDp d => .dp d
  | .sbcDp d => .dp d
  | .incDp d => .dp d
  | .sbcDpIndL d => .dpIndL d
  | .inx => .imp
  | .sbcImm v => .immM v
  | .nop => .imp
  | .xba => .imp
  | .cpxAbs a => .abs a
  | .sbcAbs a => .abs a
  | .incAbs a => .abs a
  | .sbcAbsL l => .absL l
  | .beq r => .rel8 r
  | .sbcDpIndY d => .dpIndY d
  | .sbcDpInd d => .dpInd d
  | .sbcSrIndY d => .srIndY d
  | .pea v => .pea v
  | .sbcDpX d => .dpX d
  | .incDpX d => .dpX d
  | .sbcDpIndLY d => .dpIndLY d
  | .sed => .imp
  | .sbcAbsY a => .absY a
  | .plx => .stk
  | .xce => .imp
  | .jsrAbsXInd a => .absXInd a
  | .sbcAbsX a => .absX a
  | .incAbsX a => .absX a
  | .sbcAbsLX l => .absLX l

/-- The opcode byte of an instruction (R117). -/
def Instr.opcode : Instr → Byte
  | .brk _ => 0x00#8
  | .oraDpXInd _ => 0x01#8
  | .cop _ => 0x02#8
  | .oraSr _ => 0x03#8
  | .tsbDp _ => 0x04#8
  | .oraDp _ => 0x05#8
  | .aslDp _ => 0x06#8
  | .oraDpIndL _ => 0x07#8
  | .php => 0x08#8
  | .oraImm _ => 0x09#8
  | .aslA => 0x0A#8
  | .phd => 0x0B#8
  | .tsbAbs _ => 0x0C#8
  | .oraAbs _ => 0x0D#8
  | .aslAbs _ => 0x0E#8
  | .oraAbsL _ => 0x0F#8
  | .bpl _ => 0x10#8
  | .oraDpIndY _ => 0x11#8
  | .oraDpInd _ => 0x12#8
  | .oraSrIndY _ => 0x13#8
  | .trbDp _ => 0x14#8
  | .oraDpX _ => 0x15#8
  | .aslDpX _ => 0x16#8
  | .oraDpIndLY _ => 0x17#8
  | .clc => 0x18#8
  | .oraAbsY _ => 0x19#8
  | .incA => 0x1A#8
  | .tcs => 0x1B#8
  | .trbAbs _ => 0x1C#8
  | .oraAbsX _ => 0x1D#8
  | .aslAbsX _ => 0x1E#8
  | .oraAbsLX _ => 0x1F#8
  | .jsrAbs _ => 0x20#8
  | .andDpXInd _ => 0x21#8
  | .jslAbsL _ => 0x22#8
  | .andSr _ => 0x23#8
  | .bitDp _ => 0x24#8
  | .andDp _ => 0x25#8
  | .rolDp _ => 0x26#8
  | .andDpIndL _ => 0x27#8
  | .plp => 0x28#8
  | .andImm _ => 0x29#8
  | .rolA => 0x2A#8
  | .pld => 0x2B#8
  | .bitAbs _ => 0x2C#8
  | .andAbs _ => 0x2D#8
  | .rolAbs _ => 0x2E#8
  | .andAbsL _ => 0x2F#8
  | .bmi _ => 0x30#8
  | .andDpIndY _ => 0x31#8
  | .andDpInd _ => 0x32#8
  | .andSrIndY _ => 0x33#8
  | .bitDpX _ => 0x34#8
  | .andDpX _ => 0x35#8
  | .rolDpX _ => 0x36#8
  | .andDpIndLY _ => 0x37#8
  | .sec => 0x38#8
  | .andAbsY _ => 0x39#8
  | .decA => 0x3A#8
  | .tsc => 0x3B#8
  | .bitAbsX _ => 0x3C#8
  | .andAbsX _ => 0x3D#8
  | .rolAbsX _ => 0x3E#8
  | .andAbsLX _ => 0x3F#8
  | .rti => 0x40#8
  | .eorDpXInd _ => 0x41#8
  | .wdm _ => 0x42#8
  | .eorSr _ => 0x43#8
  | .mvp _ _ => 0x44#8
  | .eorDp _ => 0x45#8
  | .lsrDp _ => 0x46#8
  | .eorDpIndL _ => 0x47#8
  | .pha => 0x48#8
  | .eorImm _ => 0x49#8
  | .lsrA => 0x4A#8
  | .phk => 0x4B#8
  | .jmpAbs _ => 0x4C#8
  | .eorAbs _ => 0x4D#8
  | .lsrAbs _ => 0x4E#8
  | .eorAbsL _ => 0x4F#8
  | .bvc _ => 0x50#8
  | .eorDpIndY _ => 0x51#8
  | .eorDpInd _ => 0x52#8
  | .eorSrIndY _ => 0x53#8
  | .mvn _ _ => 0x54#8
  | .eorDpX _ => 0x55#8
  | .lsrDpX _ => 0x56#8
  | .eorDpIndLY _ => 0x57#8
  | .cli => 0x58#8
  | .eorAbsY _ => 0x59#8
  | .phy => 0x5A#8
  | .tcd => 0x5B#8
  | .jmlAbsL _ => 0x5C#8
  | .eorAbsX _ => 0x5D#8
  | .lsrAbsX _ => 0x5E#8
  | .eorAbsLX _ => 0x5F#8
  | .rts => 0x60#8
  | .adcDpXInd _ => 0x61#8
  | .per _ => 0x62#8
  | .adcSr _ => 0x63#8
  | .stzDp _ => 0x64#8
  | .adcDp _ => 0x65#8
  | .rorDp _ => 0x66#8
  | .adcDpIndL _ => 0x67#8
  | .pla => 0x68#8
  | .adcImm _ => 0x69#8
  | .rorA => 0x6A#8
  | .rtl => 0x6B#8
  | .jmpAbsInd _ => 0x6C#8
  | .adcAbs _ => 0x6D#8
  | .rorAbs _ => 0x6E#8
  | .adcAbsL _ => 0x6F#8
  | .bvs _ => 0x70#8
  | .adcDpIndY _ => 0x71#8
  | .adcDpInd _ => 0x72#8
  | .adcSrIndY _ => 0x73#8
  | .stzDpX _ => 0x74#8
  | .adcDpX _ => 0x75#8
  | .rorDpX _ => 0x76#8
  | .adcDpIndLY _ => 0x77#8
  | .sei => 0x78#8
  | .adcAbsY _ => 0x79#8
  | .ply => 0x7A#8
  | .tdc => 0x7B#8
  | .jmpAbsXInd _ => 0x7C#8
  | .adcAbsX _ => 0x7D#8
  | .rorAbsX _ => 0x7E#8
  | .adcAbsLX _ => 0x7F#8
  | .bra _ => 0x80#8
  | .staDpXInd _ => 0x81#8
  | .brl _ => 0x82#8
  | .staSr _ => 0x83#8
  | .styDp _ => 0x84#8
  | .staDp _ => 0x85#8
  | .stxDp _ => 0x86#8
  | .staDpIndL _ => 0x87#8
  | .dey => 0x88#8
  | .bitImm _ => 0x89#8
  | .txa => 0x8A#8
  | .phb => 0x8B#8
  | .styAbs _ => 0x8C#8
  | .staAbs _ => 0x8D#8
  | .stxAbs _ => 0x8E#8
  | .staAbsL _ => 0x8F#8
  | .bcc _ => 0x90#8
  | .staDpIndY _ => 0x91#8
  | .staDpInd _ => 0x92#8
  | .staSrIndY _ => 0x93#8
  | .styDpX _ => 0x94#8
  | .staDpX _ => 0x95#8
  | .stxDpY _ => 0x96#8
  | .staDpIndLY _ => 0x97#8
  | .tya => 0x98#8
  | .staAbsY _ => 0x99#8
  | .txs => 0x9A#8
  | .txy => 0x9B#8
  | .stzAbs _ => 0x9C#8
  | .staAbsX _ => 0x9D#8
  | .stzAbsX _ => 0x9E#8
  | .staAbsLX _ => 0x9F#8
  | .ldyImm _ => 0xA0#8
  | .ldaDpXInd _ => 0xA1#8
  | .ldxImm _ => 0xA2#8
  | .ldaSr _ => 0xA3#8
  | .ldyDp _ => 0xA4#8
  | .ldaDp _ => 0xA5#8
  | .ldxDp _ => 0xA6#8
  | .ldaDpIndL _ => 0xA7#8
  | .tay => 0xA8#8
  | .ldaImm _ => 0xA9#8
  | .tax => 0xAA#8
  | .plb => 0xAB#8
  | .ldyAbs _ => 0xAC#8
  | .ldaAbs _ => 0xAD#8
  | .ldxAbs _ => 0xAE#8
  | .ldaAbsL _ => 0xAF#8
  | .bcs _ => 0xB0#8
  | .ldaDpIndY _ => 0xB1#8
  | .ldaDpInd _ => 0xB2#8
  | .ldaSrIndY _ => 0xB3#8
  | .ldyDpX _ => 0xB4#8
  | .ldaDpX _ => 0xB5#8
  | .ldxDpY _ => 0xB6#8
  | .ldaDpIndLY _ => 0xB7#8
  | .clv => 0xB8#8
  | .ldaAbsY _ => 0xB9#8
  | .tsx => 0xBA#8
  | .tyx => 0xBB#8
  | .ldyAbsX _ => 0xBC#8
  | .ldaAbsX _ => 0xBD#8
  | .ldxAbsY _ => 0xBE#8
  | .ldaAbsLX _ => 0xBF#8
  | .cpyImm _ => 0xC0#8
  | .cmpDpXInd _ => 0xC1#8
  | .rep _ => 0xC2#8
  | .cmpSr _ => 0xC3#8
  | .cpyDp _ => 0xC4#8
  | .cmpDp _ => 0xC5#8
  | .decDp _ => 0xC6#8
  | .cmpDpIndL _ => 0xC7#8
  | .iny => 0xC8#8
  | .cmpImm _ => 0xC9#8
  | .dex => 0xCA#8
  | .wai => 0xCB#8
  | .cpyAbs _ => 0xCC#8
  | .cmpAbs _ => 0xCD#8
  | .decAbs _ => 0xCE#8
  | .cmpAbsL _ => 0xCF#8
  | .bne _ => 0xD0#8
  | .cmpDpIndY _ => 0xD1#8
  | .cmpDpInd _ => 0xD2#8
  | .cmpSrIndY _ => 0xD3#8
  | .pei _ => 0xD4#8
  | .cmpDpX _ => 0xD5#8
  | .decDpX _ => 0xD6#8
  | .cmpDpIndLY _ => 0xD7#8
  | .cld => 0xD8#8
  | .cmpAbsY _ => 0xD9#8
  | .phx => 0xDA#8
  | .stp => 0xDB#8
  | .jmlAbsIndL _ => 0xDC#8
  | .cmpAbsX _ => 0xDD#8
  | .decAbsX _ => 0xDE#8
  | .cmpAbsLX _ => 0xDF#8
  | .cpxImm _ => 0xE0#8
  | .sbcDpXInd _ => 0xE1#8
  | .sep _ => 0xE2#8
  | .sbcSr _ => 0xE3#8
  | .cpxDp _ => 0xE4#8
  | .sbcDp _ => 0xE5#8
  | .incDp _ => 0xE6#8
  | .sbcDpIndL _ => 0xE7#8
  | .inx => 0xE8#8
  | .sbcImm _ => 0xE9#8
  | .nop => 0xEA#8
  | .xba => 0xEB#8
  | .cpxAbs _ => 0xEC#8
  | .sbcAbs _ => 0xED#8
  | .incAbs _ => 0xEE#8
  | .sbcAbsL _ => 0xEF#8
  | .beq _ => 0xF0#8
  | .sbcDpIndY _ => 0xF1#8
  | .sbcDpInd _ => 0xF2#8
  | .sbcSrIndY _ => 0xF3#8
  | .pea _ => 0xF4#8
  | .sbcDpX _ => 0xF5#8
  | .incDpX _ => 0xF6#8
  | .sbcDpIndLY _ => 0xF7#8
  | .sed => 0xF8#8
  | .sbcAbsY _ => 0xF9#8
  | .plx => 0xFA#8
  | .xce => 0xFB#8
  | .jsrAbsXInd _ => 0xFC#8
  | .sbcAbsX _ => 0xFD#8
  | .incAbsX _ => 0xFE#8
  | .sbcAbsLX _ => 0xFF#8

/-- R112: the byte length of an instruction at the widths in force. -/
def Instr.len (m8 x8 : Bool) (i : Instr) : Nat := i.mode.len m8 x8

/-- R112: the length that an opcode byte has at the widths in force (it does not depend on the operand). -/
def opcodeLen (m8 x8 : Bool) (op : Byte) : Nat := (instrOf op 0#8 0#8 0#8).len m8 x8

/-- How many operand bytes the core reads after this opcode byte at the widths in force (R112, R131, R345). -/
def opcodeBytesRead (m8 x8 : Bool) (op : Byte) : Nat := (instrOf op 0#8 0#8 0#8).mode.bytesRead m8 x8

/-- The instruction of an opcode byte and the operand bytes that follow it, a byte the opcode does not have being 0. -/
def instrOfBytes (op : Byte) (bs : List Byte) : Instr :=
  instrOf op (bs.getD 0 0#8) (bs.getD 1 0#8) (bs.getD 2 0#8)

/-- R114: decode the instruction at the head of a list of bytes, at the widths in force, and give the bytes after it. -/
def decode (m8 x8 : Bool) : List Byte → Except DecodeError (Instr × List Byte)
  | [] => .error .noOpcode
  | op :: rest =>
    let n := opcodeLen m8 x8 op - 1
    if rest.length < n then .error (.truncated op) else .ok (instrOfBytes op (rest.take n), rest.drop n)

/-- R111: the operand bytes of a mode, low byte first; a variable-width immediate is cut to its width. -/
def Mode.operandBytes (m8 x8 : Bool) : Mode → List Byte
  | .imp => []
  | .acc => []
  | .stk => []
  | .int sig => [sig]
  | .immM v => if m8 then [loByte v] else [loByte v, hiByte v]
  | .immX v => if x8 then [loByte v] else [loByte v, hiByte v]
  | .imm8 v => [v]
  | .imm8Skip v => [v]
  | .rel8 r => [r]
  | .rel16 r => [loByte r, hiByte r]
  | .blk dst src => [dst, src]
  | .pea v => [loByte v, hiByte v]
  | .pei d => [d]
  | .dp d => [d]
  | .dpX d => [d]
  | .dpY d => [d]
  | .dpInd d => [d]
  | .dpIndL d => [d]
  | .dpXInd d => [d]
  | .dpIndY d => [d]
  | .dpIndLY d => [d]
  | .sr d => [d]
  | .srIndY d => [d]
  | .abs a => [loByte a, hiByte a]
  | .absX a => [loByte a, hiByte a]
  | .absY a => [loByte a, hiByte a]
  | .absInd a => [loByte a, hiByte a]
  | .absXInd a => [loByte a, hiByte a]
  | .absIndL a => [loByte a, hiByte a]
  | .absL l => [loByte l.offset, hiByte l.offset, l.bank]
  | .absLX l => [loByte l.offset, hiByte l.offset, l.bank]

/-- R110: the bytes of an instruction at the widths in force: the opcode byte, then the operand bytes. -/
def encode (m8 x8 : Bool) (i : Instr) : List Byte := i.opcode :: i.mode.operandBytes m8 x8

/-- The byte at position `k` of a table word whose lowest `nbits` bits are given and whose other bits are 0. -/
def tableByte (nbits w k : Nat) : Byte := BitVec.ofNat 8 (w % 2 ^ nbits / 256 ^ k)

/-- The four bytes, the longest instruction (R112), that a table word stands for, in memory order. -/
def tableBytes (nbits w : Nat) : List Byte := [tableByte nbits w 0, tableByte nbits w 1, tableByte nbits w 2, tableByte nbits w 3]

/-- The instruction that the decoder reads from a table word, at the widths of the reset state (8 bits, R55). -/
def decodeTableWord (nbits w : Nat) : Option Instr :=
  match decode true true (tableBytes nbits w) with
  | .ok (i, _) => some i
  | .error _ => none

end Sys2Proof
end

