-- ==== Sys2Proof/Machine/Address.lean ====
section
/-! DEFINITION. The Address type's arithmetic (R70 to R76). -/

namespace Sys2Proof

/-- `as_integer` of R70: `bank << 16 | offset`. -/
def Addr.asInteger (a : Addr) : Nat := a.bank.toNat * 65536 + a.offset.toNat

/-- `from_integer` of R70: bank from bits 23:16, offset from bits 15:0. -/
def Addr.fromInteger (n : Nat) : Addr := ⟨BitVec.ofNat 8 (n / 65536), BitVec.ofNat 16 n⟩

/-- `with_offset_wrap` of R71: the offset wraps modulo 2^16, the bank is unchanged. -/
def Addr.withOffsetWrap (a : Addr) (d : Int) : Addr :=
  ⟨a.bank, BitVec.ofInt 16 (a.offset.toNat + d)⟩

/-- `with_offset_no_wrap` of R72: the sum carries into the bank, modulo 2^24. -/
def Addr.withOffsetNoWrap (a : Addr) (d : Int) : Addr :=
  Addr.fromInteger ((a.asInteger + d) % 16777216).toNat

/-- `with_offset` of R73: the default addition, which is the wrap-around one. -/
def Addr.withOffset (a : Addr) (d : Int) : Addr := a.withOffsetWrap d

/-- `in_range` of R75, both bounds inclusive. -/
def Addr.inRange (a start stop : Addr) : Bool :=
  decide (start.asInteger ≤ a.asInteger) && decide (a.asInteger ≤ stop.asInteger)

/-- `offsets_are_on_different_pages` of R76. -/
def differentPages (o1 o2 : Word) : Bool := o1.toNat / 256 != o2.toNat / 256

end Sys2Proof
end

