-- ==== Sys2Proof/Config.lean ====
section
/-! DEFINITION. What is fixed at construction: the bus configuration and the named parameters of R8 (`Platform`),
its standard value, and the free values that the spec leaves open (opaque: nothing can evaluate them). -/

namespace Sys2Proof

/-- R79: a flat memory region, by its first and last address (both inclusive, decision D4). Its bytes stand in
the bus state's memory. -/
structure Region where
  first : Nat
  last  : Nat
deriving DecidableEq, Repr

/-- A range of addresses that a device claims: address `a` of it decodes to the device-local address
`base + (a - first)`. -/
structure Window where
  first : Nat
  last  : Nat
  base  : Nat
deriving DecidableEq, Repr

/-- R80: a registered device. `regions` is its `memory_regions()` list; `windows` is its `decode` function as
data (the first window that holds the address answers). -/
structure Device where
  regions : List Region
  windows : List Window
deriving DecidableEq, Repr

/-- R420: the native vector table, each entry the offset in bank 0 where the vector is stored. -/
structure NativeVectors where
  cop   : Word
  brk   : Word
  abort : Word
  nmi   : Word
  reset : Word
  irq   : Word
deriving DecidableEq, Repr

/-- R420: the emulation vector table, each entry the offset in bank 0 where the vector is stored. -/
structure EmulationVectors where
  cop    : Word
  unused : Word
  abort  : Word
  nmi    : Word
  reset  : Word
  irqBrk : Word
deriving DecidableEq, Repr

/-- One row of a given `DecSbc16`: on these operands and this carry, this result and this carry out. -/
structure DecSbc16Row where
  a      : Word
  m      : Word
  c      : Bool
  result : Word
  carry  : Bool
deriving DecidableEq, Repr

/-- The parameter `DecSbc16` of R8 and R195, a function of A, the operand and the carry (decision D24). -/
inductive DecSbc16 where
  /-- The default: two limbs. -/
  | twoLimb
  /-- Any function, by the rows where it differs from the default. -/
  | table (rows : List DecSbc16Row)
  /-- Some function that nothing is known of (the original's, whose values the spec does not give). -/
  | other
deriving DecidableEq, Repr

/-- One row of a given `CYCLES`: what it gives for this opcode byte where m8, x8, E and `D[7:0] = 0` are as said and
R471 to R475 give `standard`. What those rules make the cost depend on beside these (page crossed, branch taken, bytes
moved) shows in `standard`. -/
structure CycleRow where
  op       : Byte
  m8       : Bool
  x8       : Bool
  e        : Bool
  dLowZero : Bool
  standard : Nat
  cycles   : Nat
deriving DecidableEq, Repr

/-- The parameter `CYCLES` of R8 and R470, a function of the opcode byte and the state before (decision D44). -/
inductive CyclesParam where
  /-- The default: R471 to R476. -/
  | standard
  /-- A function of what the default depends on, by the rows where it differs from it. -/
  | table (rows : List CycleRow)
  /-- Some function of the whole state before, one for each number, that nothing is known of. -/
  | other (k : Nat)
deriving DecidableEq, Repr

/-- R54, R8: everything supplied at construction. No step writes it. -/
structure Platform where
  /-- R80: the devices in registration order. -/
  devices             : List Device
  nativeVectors       : NativeVectors
  emulationVectors    : EmulationVectors
  /-- `EMU_STACK_PAGE1` (decision D10). -/
  emuStackPage1       : Bool
  /-- `MULTIBYTE_CROSSES_BANK` (decision D2). -/
  multibyteCrossesBank : Bool
  /-- `UNIMPLEMENTED` (decision D42): the opcode bytes with no handler. -/
  unimplemented       : List Byte
  /-- `DecSbc16` (decision D24). -/
  decSbc16            : DecSbc16
  /-- `CYCLES` (decision D44). -/
  cycles              : CyclesParam
  /-- `INT_ENTRY_CYCLES` when the mode before the entry is emulation mode (decision D45). -/
  intEntryCyclesE     : Nat
  /-- `INT_ENTRY_CYCLES` when the mode before the entry is native mode (decision D45). -/
  intEntryCyclesN     : Nat
  /-- `RESET_CYCLES` (decision D45). -/
  resetCycles         : Nat
deriving DecidableEq, Repr

/-- R420: the default native table (decision D28). -/
def NativeVectors.standard : NativeVectors :=
  { cop := 0xFFE4#16, brk := 0xFFE6#16, abort := 0xFFE8#16, nmi := 0xFFEA#16, reset := 0xFFEC#16, irq := 0xFFEE#16 }

/-- R420: the default emulation table (decision D28). -/
def EmulationVectors.standard : EmulationVectors :=
  { cop := 0xFFF4#16, unused := 0xFFF6#16, abort := 0xFFF8#16, nmi := 0xFFFA#16, reset := 0xFFFC#16,
    irqBrk := 0xFFFE#16 }

/-- The standard platform: the parameter defaults of R8, and the bus of 95_test_vectors section 0, one flat region
that claims the whole 24-bit space. DESIGN CHOICE (log 4): the spec gives `REGIONS` and `DEVICES` no default. -/
def Platform.standard : Platform :=
  { devices := [{ regions := [{ first := 0, last := 0xFFFFFF }], windows := [] }]
    nativeVectors := NativeVectors.standard
    emulationVectors := EmulationVectors.standard
    emuStackPage1 := true
    multibyteCrossesBank := false
    unimplemented := []
    decSbc16 := .twoLimb
    cycles := .standard
    intEntryCyclesE := 7
    intEntryCyclesN := 8
    resetCycles := 0 }

/-- The byte a device answers to the `n`-th free value drawn (R81, decision D6): an oracle draw. -/
opaque Config.deviceByte : Nat → Byte

/-- The 8-bit result of a decimal limb on a digit 10 to 15, the `n`-th free value drawn (R192, decision D23). -/
opaque Config.decimalByte : Nat → Byte

/-- The carry of a decimal limb on a digit 10 to 15, the `n`-th free value drawn (R192, decision D23). -/
opaque Config.decimalCarry : Nat → Bool

/-- `DecSbc16.other` (R195): result and carry as some function of A, the operand
and the carry. -/
opaque Config.decSbc16Other : Word → Word → Bool → Word × Bool

end Sys2Proof
end

