-- ==== Sys2Proof/Machine/State.lean ====
section
/-! DEFINITION. The machine's state as plain data: every register, flag, pin, latch and run state that the spec names
(10_state.md), the bus state, and the platform that was fixed at construction. -/

namespace Sys2Proof.Machine

/-- R31: the status word, ten named Booleans; the packed byte is never stored. -/
structure Flags where
  /-- R41: sign. -/
  n : Bool
  /-- R40: overflow. -/
  v : Bool
  /-- R37: accumulator width, 1 selects 8 bits in native mode. -/
  m : Bool
  /-- R38: index width, 1 selects 8 bits in native mode. -/
  x : Bool
  /-- R35: decimal mode. -/
  d : Bool
  /-- R34: interrupt disable. -/
  i : Bool
  /-- R33: zero. -/
  z : Bool
  /-- R32: carry. -/
  c : Bool
  /-- R36: break, in the encoding of emulation mode only. -/
  b : Bool
  /-- R39: emulation mode. -/
  e : Bool
deriving DecidableEq, Repr

/-- R52: the five input pins, as the host has set them; true is asserted. -/
structure Pins where
  res   : Bool
  rdy   : Bool
  irq   : Bool
  nmi   : Bool
  abort : Bool
deriving DecidableEq, Repr

/-- R51: the run state. -/
inductive RunState where
  | resetHeld
  | running
  | waiting
  | stopped
deriving DecidableEq, Repr

/-- R411, R418: what can enter through the shared entry sequence. -/
inductive Cause where
  | abort
  | nmi
  | irq
  | brk
  | cop
deriving DecidableEq, Repr

/-- R81: one access that reached a device: which device, the device-local address, and the byte. A read's byte is
the device's answer (an oracle draw); a write is the step's output event. -/
inductive DevEvent where
  | read (dev : Nat) (loc : Nat) (value : Byte)
  | write (dev : Nat) (loc : Nat) (value : Byte)
deriving DecidableEq, Repr

/-- Memory contents: (address, byte) pairs in one canonical form (`Memory.wf`). -/
abbrev Memory := List Host.Cell

/-- The bus state (R79, R81): the bytes of the flat regions, the history of device accesses (newest first), and how
many free values have been drawn (the model's own counter, log 9). -/
structure Bus where
  mem    : Memory
  devLog : List DevEvent
  draws  : Nat
deriving DecidableEq, Repr

/-- Why the machine stops. -/
inductive Fault where
  /-- R6, R121: raised by `step` alone, when the fetched opcode byte is in the platform's `UNIMPLEMENTED`; no state
  changes. Safe: the original would fetch the same opcode for ever. -/
  | defect (op : Byte)
deriving DecidableEq, Repr

/-- Why an instruction has no meaning. -/
inductive Refusal where
  /-- An instruction of the opcode table whose meaning is not written. No arm of `exec` raises it: every instruction
  has its meaning. Safe. -/
  | notModelled (mnemonic : String)
deriving DecidableEq, Repr

/-- The state of the machine (R20, R31, R51 to R54, R79, R81). -/
structure State where
  /-- R22: the accumulator, 16 bits. -/
  a            : Word
  /-- R20: index register X. -/
  x            : Word
  /-- R20: index register Y. -/
  y            : Word
  /-- R26: the stack pointer S. -/
  sp           : Word
  /-- R27: the direct-page register D. -/
  dp           : Word
  /-- R28: the data-bank register. -/
  dbr          : Byte
  /-- R29: the program bank. -/
  pbr          : Byte
  /-- R29: the program offset. -/
  pc           : Word
  /-- R31: the status flags. -/
  p            : Flags
  /-- R30: the cycle counter. -/
  cyc          : BitVec 64
  /-- R51: the run state. -/
  run          : RunState
  /-- R53: set by an NMI edge. -/
  nmiPending   : Bool
  /-- R53: set by an ABORT edge. -/
  abortPending : Bool
  /-- R54: set when RES is asserted. -/
  resetPending : Bool
  /-- R52: the pins. -/
  pins         : Pins
  /-- R79, R81: the bus state. -/
  bus          : Bus
  /-- R54: the configuration. No step writes it. -/
  plat         : Platform
deriving DecidableEq, Repr

/-- The three outcomes of a step of this machine (R6). -/
abbrev Result := Host.Outcome State Fault Refusal

/-- R450, R55: the flags after reset. N, V, Z, C and B are kept by reset; 0 is the model's choice for them (log 1). -/
def Flags.reset : Flags :=
  { n := false, v := false, m := true, x := true, d := false, i := true, z := false, c := false, b := false,
    e := true }

/-- No pin asserted but RDY (log 2). -/
def Pins.quiet : Pins := { res := false, rdy := true, irq := false, nmi := false, abort := false }

/-- The bus with nothing listed and no device access made. -/
def Bus.empty : Bus := { mem := [], devLog := [], draws := 0 }

/-- R55: the machine right after the reset sequence, on the standard platform with nothing in memory: the reset vector
then reads 0x0000 (R452). A, the low bytes of X, Y and S and N, V, Z, C, B are kept by reset and unspecified at
power-on; the values here are the model's choice (log 1). -/
def State.reset : State :=
  { a := 0x0000#16, x := 0x0000#16, y := 0x0000#16, sp := 0x01FF#16, dp := 0x0000#16, dbr := 0x00#8, pbr := 0x00#8,
    pc := 0x0000#16, p := Flags.reset, cyc := 0#64, run := .running, nmiPending := false, abortPending := false,
    resetPending := false, pins := Pins.quiet, bus := Bus.empty, plat := Platform.standard }

/-- R451: a machine at construction: reset held, with a reset pending and CYC 0. DESIGN CHOICE (log 1): every other
field, those that the reset sequence overwrites (E, M, X, I, the D flag, the high bytes of X, Y and S, D, DBR, PBR, PC,
the other latches) and those it keeps, is a draw in the spec and here has its value in `State.reset`. What holds of
every power-on state is said with `State.isPowerOn`. -/
def State.powerOn : State := { State.reset with run := .resetHeld, resetPending := true }

end Sys2Proof.Machine
end

