-- ==== Sys2Proof/Machine/Flags.lean ====
section
/-! DEFINITION. The flag computations (R12, R42 to R46) and the ALU primitives (R190 to R195, R213). Values of width 8
are carried zero-extended in a word. -/

namespace Sys2Proof.Machine

/-- `NZ(v, w)` of R12. -/
def Flags.nz (w : Width) (v : Word) (p : Flags) : Flags :=
  { p with n := topBit w v, z := trunc w v == 0#16 }

/-- R23: the accumulator is 8 bits wide. -/
def Flags.m8 (p : Flags) : Bool := p.e || p.m

/-- R23: the index registers are 8 bits wide. -/
def Flags.x8 (p : Flags) : Bool := p.e || p.x

/-- R43: the 8-bit encoding of the status word. -/
def Flags.encode (p : Flags) : Byte :=
  BitVec.ofNat 8
    (128 * p.n.toNat + 64 * p.v.toNat + 32 * (if p.e then true else p.m).toNat + 16 * (if p.e then p.b else p.x).toNat
      + 8 * p.d.toNat + 4 * p.i.toNat + 2 * p.z.toNat + p.c.toNat)

/-- R44: the flags after `decode(v)`; bits 5 and 4 are M and X in native mode, bit 4 is B in emulation mode, and E never
changes. (The index high bytes are cleared by `State.setP`, R50.) -/
def Flags.decode (v : Byte) (p : Flags) : Flags :=
  let q := { p with n := v.getLsbD 7, v := v.getLsbD 6, d := v.getLsbD 3, i := v.getLsbD 2, z := v.getLsbD 1,
                    c := v.getLsbD 0 }
  if p.e then { q with b := v.getLsbD 4 } else { q with m := v.getLsbD 5, x := v.getLsbD 4 }

/-- R45, R46: the mask of REP and SEP, with bits 4 and 5 masked off in emulation mode. -/
def Flags.mask (p : Flags) (v : Byte) : Byte := if p.e then v &&& 0xCF#8 else v

/-- R45: clear the flags whose bit is set in the mask. -/
def Flags.resetBits (v : Byte) (p : Flags) : Flags :=
  let k := p.mask v
  { p with n := p.n && !k.getLsbD 7, v := p.v && !k.getLsbD 6, m := p.m && !k.getLsbD 5, x := p.x && !k.getLsbD 4,
           d := p.d && !k.getLsbD 3, i := p.i && !k.getLsbD 2, z := p.z && !k.getLsbD 1, c := p.c && !k.getLsbD 0 }

/-- R46: set the flags whose bit is set in the mask. -/
def Flags.setBits (v : Byte) (p : Flags) : Flags :=
  let k := p.mask v
  { p with n := p.n || k.getLsbD 7, v := p.v || k.getLsbD 6, m := p.m || k.getLsbD 5, x := p.x || k.getLsbD 4,
           d := p.d || k.getLsbD 3, i := p.i || k.getLsbD 2, z := p.z || k.getLsbD 1, c := p.c || k.getLsbD 0 }

/-- The complement at width `w` (`~b` of R190). -/
def complement (w : Width) (b : Word) : Word := trunc w (~~~b)

/-- R190: the binary adder: the sum modulo 2^w and the carry out of bit w-1. -/
def addBin (w : Width) (a b : Word) (c : Bool) : Word × Bool :=
  let s := a.toNat + b.toNat + c.toNat
  (BitVec.ofNat 16 (s % 2 ^ w.bits), decide (2 ^ w.bits ≤ s))

/-- R191: signed overflow, the carry out of bit w-2 against the carry out of bit w-1. -/
def overflow (w : Width) (a b : Word) (c : Bool) : Bool :=
  let half := 2 ^ (w.bits - 1)
  let cLow := decide (half ≤ a.toNat % half + b.toNat % half + c.toNat)
  let cHigh := decide (2 ^ w.bits ≤ a.toNat + b.toNat + c.toNat)
  cLow != cHigh

/-- Both digits of a byte are 0 to 9. -/
def isBcd (a : Byte) : Bool := decide (a.toNat % 16 ≤ 9) && decide (a.toNat / 16 ≤ 9)

/-- R192, the formula: one decimal limb of an addition. -/
def decAddDigits (a b : Byte) (c : Bool) : Byte × Bool :=
  let lo := a.toNat % 16 + b.toNat % 16 + c.toNat
  let c1 := decide (10 ≤ lo)
  let hi := a.toNat / 16 + b.toNat / 16 + c1.toNat
  let c2 := decide (10 ≤ hi)
  (BitVec.ofNat 8 (16 * ((if c2 then hi - 10 else hi) % 16) + (if c1 then lo - 10 else lo) % 16), c2)

/-- R193, the formula: one decimal limb of a subtraction; the carry out is 1 when nothing is borrowed. -/
def decSubDigits (a b : Byte) (c : Bool) : Byte × Bool :=
  let lo : Int := a.toNat % 16 - b.toNat % 16 - (1 - c.toNat)
  let b1 := decide (lo < 0)
  let hi : Int := a.toNat / 16 - b.toNat / 16 - b1.toNat
  let b2 := decide (hi < 0)
  (BitVec.ofNat 8 (16 * ((if b2 then hi + 10 else hi) % 16).toNat + ((if b1 then lo + 10 else lo) % 16).toNat), !b2)

/-- R192: `DecAdd8`. On a digit 10 to 15 the result and the carry are free values, the `n`-th drawn (decision D23). -/
def decAdd8 (n : Nat) (a b : Byte) (c : Bool) : Byte × Bool :=
  if isBcd a && isBcd b then decAddDigits a b c else (Config.decimalByte n, Config.decimalCarry n)

/-- R193: `DecSub8`. On a digit 10 to 15 the result and the carry are free values, the `n`-th drawn (decision D23). -/
def decSub8 (n : Nat) (a b : Byte) (c : Bool) : Byte × Bool :=
  if isBcd a && isBcd b then decSubDigits a b c else (Config.decimalByte n, Config.decimalCarry n)

/-- Two limbs composed, the carry of the low one entering the high one (R194, R195); the limbs draw the free values
`n` and `n + 1`. -/
def twoLimbs (f : Nat → Byte → Byte → Bool → Byte × Bool) (n : Nat) (a b : Word) (c : Bool) : Word × Bool :=
  let lo := f n (loByte a) (loByte b) c
  let hi := f (n + 1) (hiByte a) (hiByte b) lo.2
  (joinBytes hi.1 lo.1, hi.2)

/-- One 8-bit limb, its result zero-extended (R194, R195 at width 8). -/
def oneLimb (f : Nat → Byte → Byte → Bool → Byte × Bool) (n : Nat) (a b : Word) (c : Bool) : Word × Bool :=
  let r := f n (loByte a) (loByte b) c
  (zext16 r.1, r.2)

/-- R194: `DecAdd`. -/
def decAdd (w : Width) (n : Nat) (a b : Word) (c : Bool) : Word × Bool :=
  match w with
  | .w8 => oneLimb decAdd8 n a b c
  | .w16 => twoLimbs decAdd8 n a b c

/-- The first row of a given `DecSbc16` for these operands. -/
def decSbc16Row (rows : List DecSbc16Row) (a b : Word) (c : Bool) : Option DecSbc16Row :=
  rows.find? fun r => r.a == a && r.m == b && r.c == c

/-- R195: `DecSbc16`, the platform's parameter; the default composes two limbs (decision D24). -/
def decSbc16 (k : DecSbc16) (n : Nat) (a b : Word) (c : Bool) : Word × Bool :=
  match k with
  | .twoLimb => twoLimbs decSub8 n a b c
  | .table rows =>
    match decSbc16Row rows a b c with
    | some r => (r.result, r.carry)
    | none => twoLimbs decSub8 n a b c
  | .other => Config.decSbc16Other a b c

/-- R195: `DecSub`. -/
def decSub (k : DecSbc16) (w : Width) (n : Nat) (a b : Word) (c : Bool) : Word × Bool :=
  match w with
  | .w8 => oneLimb decSub8 n a b c
  | .w16 => decSbc16 k n a b c

/-- R213: the flags of a comparison of register value `r` with operand `m` at width `w`. -/
def Flags.compare (w : Width) (r m : Word) (p : Flags) : Flags :=
  let d := addBin w r (complement w m) true
  { p.nz w d.1 with c := d.2 }

end Sys2Proof.Machine
end

