-- ==== Sys2Proof/Machine/Cycles.lean ====
section
/-! DEFINITION. Cycle accounting: the base table of R476 and the penalties of R472, the default of the parameter
`CYCLES`, and the parameter itself (decision D44; log 12). -/

namespace Sys2Proof

/-- `CYCLES` where it is `CyclesParam.other k` (R470): the `k`-th function of the opcode byte and the state before the
instruction. It stands here and not in Config.lean because its type speaks of the state. -/
opaque Config.cyclesOther : Nat → Byte → Machine.State → Nat

end Sys2Proof

namespace Sys2Proof.Machine

/-- R476: the base table, row = high nibble, column = low nibble. -/
def cycleTable : List (List Nat) :=
  [[7, 6, 7, 4, 5, 3, 5, 6, 3, 2, 2, 4, 6, 4, 6, 5],
   [2, 5, 5, 7, 5, 4, 6, 6, 2, 4, 2, 2, 6, 4, 7, 5],
   [6, 6, 8, 4, 3, 3, 5, 6, 4, 2, 2, 5, 4, 4, 6, 5],
   [2, 5, 5, 7, 4, 4, 6, 6, 2, 4, 2, 2, 4, 4, 7, 5],
   [6, 6, 2, 4, 7, 3, 5, 6, 3, 2, 2, 3, 3, 4, 6, 5],
   [2, 5, 5, 7, 7, 4, 6, 6, 2, 4, 3, 2, 4, 4, 7, 5],
   [6, 6, 6, 4, 3, 3, 5, 6, 4, 2, 2, 6, 5, 4, 6, 5],
   [2, 5, 5, 7, 4, 4, 6, 6, 2, 4, 4, 2, 6, 4, 7, 5],
   [2, 6, 4, 4, 3, 3, 3, 6, 2, 2, 2, 3, 4, 4, 4, 5],
   [2, 6, 5, 7, 4, 4, 4, 6, 2, 5, 2, 2, 4, 5, 5, 5],
   [2, 6, 2, 4, 3, 3, 3, 6, 2, 2, 2, 4, 4, 4, 4, 5],
   [2, 5, 5, 7, 4, 4, 4, 6, 2, 4, 2, 2, 4, 4, 4, 5],
   [2, 6, 3, 4, 3, 3, 5, 6, 2, 2, 2, 3, 4, 4, 6, 5],
   [2, 5, 5, 7, 6, 4, 6, 6, 2, 4, 3, 3, 6, 4, 7, 5],
   [2, 6, 3, 4, 3, 3, 5, 6, 2, 2, 2, 3, 4, 4, 6, 5],
   [2, 5, 5, 7, 5, 4, 6, 6, 2, 4, 4, 2, 8, 4, 7, 5]]

/-- R471: `base(op)`. -/
def baseCycles (op : Byte) : Nat := (cycleTable.getD (op.toNat / 16) []).getD (op.toNat % 16) 0

/-- R472 item 1: +1 for a 16-bit operation. -/
def widthPenalty (w : Width) : Nat :=
  match w with
  | .w8 => 0
  | .w16 => 1

/-- R472 item 2: +1 when D's low byte is not zero, for the direct-page modes and PEI. -/
def dpPenalty (m : Mode) (dp : Word) : Nat := if m.isDirectPage && loByte dp != 0#8 then 1 else 0

/-- R472 item 3: +1 when the page predicate of R156 holds. -/
def pagePenalty (crossed : Bool) : Nat := if crossed then 1 else 0

/-- R472 item 4: +1 in native mode for BRK, COP and RTI. -/
def nativePenalty (e : Bool) : Nat := if e then 0 else 1

/-- The first row of a given `CYCLES` for this opcode, state before and default cost. -/
def cycleRow (rows : List CycleRow) (op : Byte) (n : Nat) (s : State) : Option CycleRow :=
  rows.find? fun r => r.op == op && r.m8 == s.p.m8 && r.x8 == s.p.x8 && r.e == s.p.e &&
    r.dLowZero == (loByte s.dp == 0x00#8) && r.standard == n

/-- R470: `CYCLES(op, s)`, the platform's parameter, for the state `s` before the instruction; `n` is the default,
what R471 to R475 give. -/
def State.cycles (op : Byte) (n : Nat) (s : State) : Nat :=
  match s.plat.cycles with
  | .standard => n
  | .table rows =>
    match cycleRow rows op n s with
    | some r => r.cycles
    | none => n
  | .other k => Config.cyclesOther k op s

end Sys2Proof.Machine
end

