-- ==== Sys2Proof/Machine/Memory.lean ====
section
/-! DEFINITION. Memory: reading and writing one byte of the canonical list, what an unlisted address reads as, and the
canonical form itself. -/

namespace Sys2Proof.Machine

/-- What a byte of memory that nothing has written reads as. DESIGN CHOICE (log 3): the start state of
95_test_vectors section 0 and the unpopulated vector of R452 have every such byte 0x00. -/
def unlistedByte : Byte := 0x00#8

/-- The byte at an address. -/
def Memory.read : Memory → Nat → Byte
  | [], _ => unlistedByte
  | (b, u) :: r, a => if a = b then u else Memory.read r a

/-- Put a byte at the head of the cells above its address, unless it is what an unlisted address reads as. -/
def Memory.cons (a : Nat) (v : Byte) (r : Memory) : Memory := if v = unlistedByte then r else (a, v) :: r

/-- Write one byte, keeping the addresses strictly rising and no cell equal to what an unlisted address reads as. -/
def Memory.write : Memory → Nat → Byte → Memory
  | [], a, v => Memory.cons a v []
  | (b, u) :: r, a, v =>
    if a < b then Memory.cons a v ((b, u) :: r)
    else if a = b then Memory.cons a v r
    else (b, u) :: Memory.write r a v

/-- The canonical form from a lowest address on: strictly rising addresses of the 24-bit space, no cell equal to what
an unlisted address reads as. -/
def Memory.wfFrom : Nat → Memory → Bool
  | _, [] => true
  | lo, (a, v) :: r => decide (lo ≤ a) && decide (a < 16777216) && decide (v ≠ unlistedByte) && Memory.wfFrom (a + 1) r

/-- The canonical form of memory. -/
def Memory.wf (m : Memory) : Bool := Memory.wfFrom 0 m

end Sys2Proof.Machine
end

