-- ==== Sys2Proof/Machine/Ops.lean ====
section
/-! DEFINITION. The named operations over the bus, memory, the registers and the stack, instruction fetch, the shared
interrupt entry (R411) with the return beside it (R342), the reset sequence (R450) and the boundary events (R406). A
bus operation takes and gives the bus state alone: no bus access changes a register (R21). -/

namespace Sys2Proof.Machine

/-! ## The bus multiplexer -/

/-- R75, R79: the region holds the address. -/
def inRegion (r : Region) (a : Addr) : Bool := decide (r.first ≤ a.asInteger) && decide (a.asInteger ≤ r.last)

/-- R79: `REGIONS`, the devices' regions in registration order. -/
def busRegions (P : Platform) : List Region := P.devices.flatMap (fun d => d.regions)

/-- R80: a device's `decode`: the device-local address, where a window of the device holds the address. -/
def decodeWindows : List Window → Nat → Option Nat
  | [], _ => none
  | w :: ws, a => if w.first ≤ a ∧ a ≤ w.last then some (w.base + (a - w.first)) else decodeWindows ws a

/-- R82: the first device in registration order that claims the address, with the device-local address. -/
def claimingDevice : List Device → Nat → Nat → Option (Nat × Nat)
  | [], _, _ => none
  | d :: ds, k, a =>
    match decodeWindows d.windows a with
    | some l => some (k, l)
    | none => claimingDevice ds (k + 1) a

/-- Where a byte access goes (R82, R83). -/
inductive Target where
  | region
  | device (dev : Nat) (loc : Nat)
  | openBus
deriving DecidableEq, Repr

/-- R82, R83: flat regions first, then the devices in registration order, else nothing claims the address. -/
def busTarget (P : Platform) (a : Addr) : Target :=
  if (busRegions P).any (fun r => inRegion r a) then .region
  else
    match claimingDevice P.devices 0 a.asInteger with
    | some (k, l) => .device k l
    | none => .openBus

/-- R82: `BusRead8`. A device answers a free value and may have a side effect, so the read is recorded. -/
def busRead8 (P : Platform) (a : Addr) (b : Bus) : Byte × Bus :=
  match busTarget P a with
  | .region => (Memory.read b.mem a.asInteger, b)
  | .device k l =>
    (Config.deviceByte b.draws,
     { b with draws := b.draws + 1, devLog := .read k l (Config.deviceByte b.draws) :: b.devLog })
  | .openBus => (0x00#8, b)

/-- R83: `BusWrite8`. A write to a device is an output event; an unclaimed write is discarded. -/
def busWrite8 (P : Platform) (a : Addr) (v : Byte) (b : Bus) : Bus :=
  match busTarget P a with
  | .region => { b with mem := Memory.write b.mem a.asInteger v }
  | .device k l => { b with devLog := .write k l v :: b.devLog }
  | .openBus => b

/-- R84: the address of byte `i` of a multi-byte access (decision D2); byte 0 is at the address itself. -/
def nextAddr (P : Platform) (a : Addr) (i : Nat) : Addr :=
  if P.multibyteCrossesBank then a.withOffsetNoWrap i else a.withOffset i

/-- R84: `MemRead(a, 2)`, low byte first. -/
def memRead16 (P : Platform) (a : Addr) (b : Bus) : Word × Bus :=
  let lo := busRead8 P a b
  let hi := busRead8 P (nextAddr P a 1) lo.2
  (joinBytes hi.1 lo.1, hi.2)

/-- R84, R87: `MemRead(a, 3)` as an address: offset low, offset high, bank. -/
def memRead24 (P : Platform) (a : Addr) (b : Bus) : Addr × Bus :=
  let lo := busRead8 P a b
  let hi := busRead8 P (nextAddr P a 1) lo.2
  let bk := busRead8 P (nextAddr P a 2) hi.2
  (⟨bk.1, joinBytes hi.1 lo.1⟩, bk.2)

/-- R84: `MemRead(a, w/8)`, an 8-bit value zero-extended. -/
def memRead (P : Platform) (w : Width) (a : Addr) (b : Bus) : Word × Bus :=
  match w with
  | .w8 =>
    let r := busRead8 P a b
    (zext16 r.1, r.2)
  | .w16 => memRead16 P a b

/-- R85: `MemWrite(a, w/8, v)`, low byte first. -/
def memWrite (P : Platform) (w : Width) (a : Addr) (v : Word) (b : Bus) : Bus :=
  match w with
  | .w8 => busWrite8 P a (loByte v) b
  | .w16 => busWrite8 P (nextAddr P a 1) (hiByte v) (busWrite8 P a (loByte v) b)

/-! ## Registers -/

/-- R23: `m8`. -/
def State.m8 (s : State) : Bool := s.p.m8

/-- R23: `x8`. -/
def State.x8 (s : State) : Bool := s.p.x8

/-- R10, R23: `wA`. -/
def State.wA (s : State) : Width := widthOf s.m8

/-- R10, R23: `wX`. -/
def State.wX (s : State) : Width := widthOf s.x8

/-- R24: `getA(w)`. -/
def State.getA (w : Width) (s : State) : Word := trunc w s.a

/-- R24: `setA(v, w)`, which keeps AH at width 8. -/
def State.setA (w : Width) (v : Word) (s : State) : State := { s with a := writeKeep w v s.a }

/-- R25: `getI(X, wX)`. -/
def State.getX (s : State) : Word := trunc s.wX s.x

/-- R25: `getI(Y, wX)`. -/
def State.getY (s : State) : Word := trunc s.wX s.y

/-- R25: `setI(X, v, w)`, whose high byte becomes 0 at width 8. -/
def State.setX (w : Width) (v : Word) (s : State) : State := { s with x := trunc w v }

/-- R25: `setI(Y, v, w)`, whose high byte becomes 0 at width 8. -/
def State.setY (w : Width) (v : Word) (s : State) : State := { s with y := trunc w v }

/-- R12: `NZ(v, w)`. -/
def State.setNZ (w : Width) (v : Word) (s : State) : State := { s with p := s.p.nz w v }

/-- R50: the new flags of PLP, RTI and SEP; where they leave X at 1 in native mode, the high bytes of X and Y
become 0 (R44, R46, decision D17). -/
def State.setP (q : Flags) (clearIndex : Bool) (s : State) : State :=
  { s with p := q, x := trunc (widthOf clearIndex) s.x, y := trunc (widthOf clearIndex) s.y }

/-- R44: `decode(v)`. -/
def State.decodeP (v : Byte) (s : State) : State :=
  let q := s.p.decode v
  s.setP q (!q.e && q.x)

/-- R46: `set_bits(v)`. -/
def State.setBits (v : Byte) (s : State) : State := s.setP (s.p.setBits v) (!s.p.e && v.getLsbD 4)

/-- R45: `reset_bits(v)`. -/
def State.resetBits (v : Byte) (s : State) : State := { s with p := s.p.resetBits v }

/-- R26, R94: `{0x01, v[7:0]}`, the stack pointer re-homed to page 1. -/
def rehome (v : Word) : Word := joinBytes 0x01#8 (loByte v)

/-- R13, R29, R470: the end of an instruction that does not transfer control: PC advances by the length, within its
bank, and CYC by the instruction's cycles. -/
def State.finish (len cycles : Nat) (s : State) : State :=
  { s with pc := s.pc + BitVec.ofNat 16 len, cyc := s.cyc + BitVec.ofNat 64 cycles }

/-- R10, R470: the end of an instruction that transfers control: PC (the offset only) and CYC. -/
def State.jumpTo (t : Word) (cycles : Nat) (s : State) : State :=
  { s with pc := t, cyc := s.cyc + BitVec.ofNat 64 cycles }

/-! ## The stack -/

/-- R90, R91: the stack stays in page 1 (decision D10). -/
def State.page1 (s : State) : Bool := s.p.e && s.plat.emuStackPage1

/-- R90: `dec(S)`. -/
def State.decS (s : State) : Word := if s.page1 then joinBytes 0x01#8 (loByte s.sp - 1#8) else s.sp - 1#16

/-- R91: `inc(S)`. -/
def State.incS (s : State) : Word := if s.page1 then joinBytes 0x01#8 (loByte s.sp + 1#8) else s.sp + 1#16

/-- R90: `Push8`: write at `$00:S`, then decrement S. -/
def State.push8 (v : Byte) (s : State) : State :=
  { s with bus := busWrite8 s.plat ⟨0x00#8, s.sp⟩ v s.bus, sp := s.decS }

/-- R91: `Pull8`: increment S, then read at `$00:S`. -/
def State.pull8 (s : State) : Byte × State :=
  let r := busRead8 s.plat ⟨0x00#8, s.incS⟩ s.bus
  (r.1, { s with bus := r.2, sp := s.incS })

/-- R92: `Push16`, high byte first. -/
def State.push16 (v : Word) (s : State) : State := (s.push8 (hiByte v)).push8 (loByte v)

/-- R92: `Pull16`, low byte first. -/
def State.pull16 (s : State) : Word × State :=
  let lo := s.pull8
  let hi := lo.2.pull8
  (joinBytes hi.1 lo.1, hi.2)

/-- R93: `Push24`: the bank, then the offset. -/
def State.push24 (bank : Byte) (o : Word) (s : State) : State := (s.push8 bank).push16 o

/-- R93: `Pull24`: the offset, then the bank. -/
def State.pull24 (s : State) : Addr × State :=
  let o := s.pull16
  let b := o.2.pull8
  (⟨b.1, o.1⟩, b.2)

/-- A push of a register of width `w` (R286). -/
def State.pushW (w : Width) (v : Word) (s : State) : State :=
  match w with
  | .w8 => s.push8 (loByte v)
  | .w16 => s.push16 v

/-- A pull of a register of width `w` (R286), an 8-bit value zero-extended. -/
def State.pullW (w : Width) (s : State) : Word × State :=
  match w with
  | .w8 =>
    let r := s.pull8
    (zext16 r.1, r.2)
  | .w16 => s.pull16

/-! ## Interrupt entry and return -/

/-- R420: the offset in bank 0 where the vector of a cause stands, by the mode (E). -/
def vectorOffset (P : Platform) (k : Cause) (e : Bool) : Word :=
  match k with
  | .abort => if e then P.emulationVectors.abort else P.nativeVectors.abort
  | .nmi => if e then P.emulationVectors.nmi else P.nativeVectors.nmi
  | .irq => if e then P.emulationVectors.irqBrk else P.nativeVectors.irq
  | .brk => if e then P.emulationVectors.irqBrk else P.nativeVectors.brk
  | .cop => if e then P.emulationVectors.cop else P.nativeVectors.cop

/-- R413: the B bit that an entry puts in the stacked flags in emulation mode: 1 for BRK and COP, else 0. -/
def Cause.breakBit : Cause → Bool
  | .abort => false
  | .nmi => false
  | .irq => false
  | .brk => true
  | .cop => true

/-- R411: the pushes of `Enter`: the bank in native mode, the return offset, and the flags with B set for emulation
mode. -/
def State.enterPushes (k : Cause) (ret : Word) (s : State) : State :=
  let s1 := if s.p.e then s else s.push8 s.pbr
  let s2 := s1.push16 ret
  let s3 := if s2.p.e then { s2 with p := { s2.p with b := k.breakBit } } else s2
  s3.push8 s3.p.encode

/-- R411: `Enter(kind, ret, B)`, shared by IRQ, NMI, ABORT, BRK and COP. -/
def State.enter (k : Cause) (ret : Word) (s : State) : State :=
  let t := s.enterPushes k ret
  let r := memRead16 t.plat ⟨0x00#8, vectorOffset t.plat k t.p.e⟩ t.bus
  { t with p := { t.p with i := true, d := false }, pbr := 0x00#8, pc := r.1, bus := r.2 }

/-- R342: RTI's pulls: the flags, the offset and, when the mode before was native, the bank. -/
def State.returnFromInterrupt (s : State) : State :=
  let f := s.pull8
  let t := f.2.decodeP f.1
  let o := t.pull16
  let u := { o.2 with pc := o.1 }
  if s.p.e then u
  else
    let b := u.pull8
    { b.2 with pbr := b.1 }

/-- R477: `INT_ENTRY_CYCLES` of the mode before the entry. -/
def State.intEntryCycles (s : State) : Nat := if s.p.e then s.plat.intEntryCyclesE else s.plat.intEntryCyclesN

/-- R406, R412: an interrupt-entry step: the return address is the instruction not yet executed. -/
def State.interruptStep (k : Cause) (s : State) : State :=
  let t := s.enter k s.pc
  { t with cyc := t.cyc + BitVec.ofNat 64 s.intEntryCycles }

/-! ## Reset -/

/-- R450: the flags after the reset sequence. -/
def Flags.afterReset (p : Flags) : Flags := { p with e := true, m := true, x := true, i := true, d := false }

/-- R450: the reset sequence. -/
def State.resetSequence (s : State) : State :=
  let r := memRead16 s.plat ⟨0x00#8, s.plat.emulationVectors.reset⟩ s.bus
  { s with p := s.p.afterReset, x := trunc .w8 s.x, y := trunc .w8 s.y, sp := rehome s.sp, dp := 0x0000#16,
           dbr := 0x00#8, pbr := 0x00#8, pc := r.1, bus := r.2, nmiPending := false, abortPending := false,
           resetPending := false, run := .running, cyc := s.cyc + BitVec.ofNat 64 s.plat.resetCycles }

/-! ## Instruction fetch -/

/-- R29: the program address `PBR:PC`. -/
def State.programAddress (s : State) : Addr := ⟨s.pbr, s.pc⟩

/-- R86: `Fetch(k)`'s address. -/
def State.fetchAddr (s : State) (k : Nat) : Addr := s.programAddress.withOffset k

/-- R86, R99: the operand bytes of an opcode, each read once in ascending order through the bus: one byte as
`Fetch(1)`, two and three as `FetchN(1, n)`, and the two of a block move as `Fetch(1)` and `Fetch(2)` (R134). -/
def State.fetchOperands (op : Byte) (s : State) : List Byte × Bus :=
  let a := s.fetchAddr 1
  let at2 := match (instrOf op 0#8 0#8 0#8).mode with
    | .blk _ _ => s.fetchAddr 2
    | _ => nextAddr s.plat a 1
  match opcodeBytesRead s.m8 s.x8 op with
  | 0 => ([], s.bus)
  | 1 =>
    let r1 := busRead8 s.plat a s.bus
    ([r1.1], r1.2)
  | 2 =>
    let r1 := busRead8 s.plat a s.bus
    let r2 := busRead8 s.plat at2 r1.2
    ([r1.1, r2.1], r2.2)
  | _ =>
    let r1 := busRead8 s.plat a s.bus
    let r2 := busRead8 s.plat at2 r1.2
    let r3 := busRead8 s.plat (nextAddr s.plat a 2) r2.2
    ([r1.1, r2.1, r3.1], r3.2)

/-- What a fetch gives: the opcode byte, the operand bytes that were read, and the bus after. -/
structure Fetched where
  op    : Byte
  bytes : List Byte
  bus   : Bus
deriving DecidableEq, Repr

/-- R406: `Fetch(0)`, the opcode byte and the bus after it. -/
def State.fetchOpcode (s : State) : Byte × Bus := busRead8 s.plat s.programAddress s.bus

/-- R86, R99: fetch the instruction at `PBR:PC`: the opcode byte, then its operand bytes. -/
def State.fetch (s : State) : Fetched :=
  let f := s.fetchOpcode
  let o := State.fetchOperands f.1 { s with bus := f.2 }
  { op := f.1, bytes := o.1, bus := o.2 }

/-- The instruction that a fetch gives; a skipped byte (R131) is not read and does not matter. -/
def Fetched.instr (f : Fetched) : Instr := instrOfBytes f.op f.bytes

/-- Write bytes into memory at consecutive offsets of the program bank from `PBR:(PC + k)` on. -/
def placeBytes (a : Addr) : Nat → List Byte → Memory → Memory
  | _, [], m => m
  | k, b :: bs, m => placeBytes a (k + 1) bs (Memory.write m (a.withOffset k).asInteger b)

/-- Place code bytes at `PBR:PC` and let nothing keep the next step from fetching them. -/
def placeForFetch (bs : List Byte) (s : State) : State :=
  { s with bus := { s.bus with mem := placeBytes s.programAddress 0 bs s.bus.mem }, run := .running,
           nmiPending := false, abortPending := false, resetPending := false, pins := Pins.quiet }

/-! ## The instruction boundary -/

/-- R404: something wakes a waiting core. -/
def State.wakes (s : State) : Bool := s.pins.irq || s.nmiPending || s.abortPending

/-- What a step does before, or instead of, an instruction (R406). -/
inductive Boundary where
  /-- The step ends in this state without an instruction. -/
  | done (s : State)
  /-- An instruction is fetched and executed from this state. -/
  | execute (s : State)
deriving DecidableEq, Repr

/-- R406, R410: the interrupt check at an instruction boundary, highest priority first. -/
def State.interruptCheck (s : State) : Boundary :=
  if s.abortPending then .done (State.interruptStep .abort { s with abortPending := false })
  else if s.nmiPending then .done (State.interruptStep .nmi { s with nmiPending := false })
  else if s.pins.irq && !s.p.i then .done (State.interruptStep .irq s)
  else .execute s

/-- R406: the step algorithm up to the fetch: RES, the reset sequence, Stopped, RDY, Waiting, then the interrupt
check. -/
def State.boundary (s : State) : Boundary :=
  if s.pins.res then .done { s with run := .resetHeld }
  else if s.run = .resetHeld ∨ s.resetPending then .done s.resetSequence
  else if s.run = .stopped then .done s
  else if !s.pins.rdy then .done s
  else if s.run = .waiting then
    if s.wakes then State.interruptCheck { s with run := .running } else .done s
  else s.interruptCheck

end Sys2Proof.Machine
end

