-- ==== Sys2Proof/Machine/Operands.lean ====
section
/-! DEFINITION. The addressing resolver (R130 to R157): the effective address of every mode that has one, the operand
access helpers of R157, and the pointer modes of the jumps and of PEI. -/

namespace Sys2Proof.Machine

/-- R141: `DPoff(k)`: D is added in native mode and ignored in emulation mode; the sum wraps in bank 0. -/
def State.dpOff (s : State) (k : Word) : Word := if s.p.e then k else s.dp + k

/-- R141: the bank-0 address of a direct-page offset. -/
def State.dpAddr (s : State) (k : Word) : Addr := ⟨0x00#8, s.dpOff k⟩

/-- R150: the bank-0 address of a stack offset. -/
def State.srAddr (s : State) (d : Byte) : Addr := ⟨0x00#8, s.sp + zext16 d⟩

/-- R156: the page predicate of an offset and an index, on the wrapped 16-bit stage. -/
def pageCrossed (o idx : Word) : Bool := differentPages o (o + idx)

/-- What resolving gives: the effective address, the page predicate of R156, and the bus after the pointer reads. -/
structure EA where
  addr    : Addr
  crossed : Bool
  bus     : Bus
deriving DecidableEq, Repr

/-- R137, R148: an address indexed without bank wrap, with the page predicate of its offset. -/
def indexedEA (a : Addr) (idx : Word) (b : Bus) : EA :=
  { addr := a.withOffsetNoWrap idx.toNat, crossed := pageCrossed a.offset idx, bus := b }

/-- R140, R149, R151: an address indexed without bank wrap in a mode that never pays the page penalty. -/
def indexedLongEA (a : Addr) (idx : Word) (b : Bus) : EA :=
  { addr := a.withOffsetNoWrap idx.toNat, crossed := false, bus := b }

/-- An address that is not indexed. -/
def plainEA (a : Addr) (b : Bus) : EA := { addr := a, crossed := false, bus := b }

/-- R130 to R151: `EA(mode)`. The modes without a memory operand give the program address (R131) or the byte after it
(R132 to R135); a pointer mode of a jump gives the address of its pointer (R152 to R154). -/
def resolve (m : Mode) (s : State) : EA :=
  match m with
  | .imp => plainEA s.programAddress s.bus
  | .acc => plainEA s.programAddress s.bus
  | .stk => plainEA s.programAddress s.bus
  | .int _ => plainEA s.programAddress s.bus
  | .immM _ => plainEA (s.fetchAddr 1) s.bus
  | .immX _ => plainEA (s.fetchAddr 1) s.bus
  | .imm8 _ => plainEA (s.fetchAddr 1) s.bus
  | .imm8Skip _ => plainEA (s.fetchAddr 1) s.bus
  | .rel8 _ => plainEA (s.fetchAddr 1) s.bus
  | .rel16 _ => plainEA (s.fetchAddr 1) s.bus
  | .blk _ _ => plainEA (s.fetchAddr 1) s.bus
  | .pea _ => plainEA (s.fetchAddr 1) s.bus
  | .pei d => plainEA (s.dpAddr (zext16 d)) s.bus
  | .dp d => plainEA (s.dpAddr (zext16 d)) s.bus
  | .dpX d => plainEA (s.dpAddr (zext16 d + s.getX)) s.bus
  | .dpY d => plainEA (s.dpAddr (zext16 d + s.getY)) s.bus
  | .dpInd d =>
    let r := memRead16 s.plat (s.dpAddr (zext16 d)) s.bus
    plainEA ⟨s.dbr, r.1⟩ r.2
  | .dpIndL d =>
    let r := memRead24 s.plat (s.dpAddr (zext16 d)) s.bus
    plainEA r.1 r.2
  | .dpXInd d =>
    let r := memRead16 s.plat (s.dpAddr (zext16 d + s.getX)) s.bus
    plainEA ⟨s.dbr, r.1⟩ r.2
  | .dpIndY d =>
    let r := memRead16 s.plat (s.dpAddr (zext16 d)) s.bus
    indexedEA ⟨s.dbr, r.1⟩ s.getY r.2
  | .dpIndLY d =>
    let r := memRead24 s.plat (s.dpAddr (zext16 d)) s.bus
    indexedLongEA r.1 s.getY r.2
  | .sr d => plainEA (s.srAddr d) s.bus
  | .srIndY d =>
    let r := memRead16 s.plat (s.srAddr d) s.bus
    indexedLongEA ⟨s.dbr, r.1⟩ s.getY r.2
  | .abs a => plainEA ⟨s.dbr, a⟩ s.bus
  | .absX a => indexedEA ⟨s.dbr, a⟩ s.getX s.bus
  | .absY a => indexedEA ⟨s.dbr, a⟩ s.getY s.bus
  | .absInd a => plainEA ⟨0x00#8, a⟩ s.bus
  | .absXInd a => plainEA ⟨s.pbr, a + s.getX⟩ s.bus
  | .absIndL a => plainEA ⟨0x00#8, a⟩ s.bus
  | .absL l => plainEA l s.bus
  | .absLX l => indexedLongEA l s.getX s.bus

/-- What loading an operand gives: its value, the page predicate, and the bus after the reads. -/
structure Loaded where
  val     : Word
  crossed : Bool
  bus     : Bus
deriving DecidableEq, Repr

/-- `MemRead(EA(mode), w/8)`: resolve, then read the operand. -/
def loadMem (m : Mode) (w : Width) (s : State) : Loaded :=
  let e := resolve m s
  let r := memRead s.plat w e.addr e.bus
  { val := r.1, crossed := e.crossed, bus := r.2 }

/-- R157: `Load(mode, w)`: an immediate as it was fetched, else the memory operand. -/
def load (m : Mode) (w : Width) (s : State) : Loaded :=
  match m with
  | .immM v => { val := trunc w v, crossed := false, bus := s.bus }
  | .immX v => { val := trunc w v, crossed := false, bus := s.bus }
  | .imm8 v => { val := trunc w (zext16 v), crossed := false, bus := s.bus }
  | m => loadMem m w s

/-- R157: `Store(mode, w, v)`: the bus after resolving and writing. -/
def store (m : Mode) (w : Width) (v : Word) (s : State) : Bus :=
  let e := resolve m s
  memWrite s.plat w e.addr v e.bus

/-- R157: the memory form of `RMW`: resolve once, read all bytes, write all bytes. Gives the operand read and the bus
after the write of `f` of it. -/
def rmwMem (m : Mode) (w : Width) (f : Word → Word) (s : State) : Word × Bus :=
  let e := resolve m s
  let r := memRead s.plat w e.addr e.bus
  (r.1, memWrite s.plat w e.addr (f r.1) r.2)

/-- R133: the target of a short branch: the next instruction's offset plus the sign-extended displacement, wrapping in
the bank. -/
def State.rel8Target (s : State) (r : Byte) : Word := s.pc + 2#16 + sext16 r

/-- R133: the target of a 16-bit displacement. -/
def State.rel16Target (s : State) (r : Word) : Word := s.pc + 3#16 + r

/-- R152, R153: the 16-bit pointer of a jump, read at the mode's pointer address. -/
def jumpPointer (m : Mode) (s : State) : Word × Bus := memRead16 s.plat (resolve m s).addr s.bus

/-- R154: the 24-bit pointer of JML [abs]. -/
def jumpPointerLong (m : Mode) (s : State) : Addr × Bus := memRead24 s.plat (resolve m s).addr s.bus

/-- R155: the word at a direct-page location, which PEI pushes. -/
def peiWord (d : Byte) (s : State) : Word × Bus := memRead16 s.plat (s.dpAddr (zext16 d)) s.bus

/-! ## The shapes shared by a family -/

/-- R177: the shape of an instruction that loads an operand of width `w`: load, apply the effect `f` of the value, and
finish with the base cost and the penalties of R472 items 1 to 3. -/
def readInstr (op : Byte) (m : Mode) (w : Width) (f : Word → State → State) (s : State) : State :=
  let r := load m w s
  (f r.val { s with bus := r.bus }).finish (m.len s.m8 s.x8)
    (s.cycles op (baseCycles op + widthPenalty w + dpPenalty m s.dp + pagePenalty r.crossed))

/-- R177: the shape of a store of `v` at width `w`; stores pay no page penalty (R472 item 3). -/
def storeInstr (op : Byte) (m : Mode) (w : Width) (v : Word) (s : State) : State :=
  ({ s with bus := store m w v s } : State).finish (m.len s.m8 s.x8)
    (s.cycles op (baseCycles op + widthPenalty w + dpPenalty m s.dp))

/-- R157, R234: the shape of a read-modify-write on memory: `f` gives the value written, `g` the flags, both from the
operand read. -/
def rmwMemInstr (op : Byte) (m : Mode) (w : Width) (f : Word → Word) (g : Word → Flags) (s : State) : State :=
  let r := rmwMem m w f s
  ({ s with bus := r.2, p := g r.1 } : State).finish (m.len s.m8 s.x8)
    (s.cycles op (baseCycles op + widthPenalty w + dpPenalty m s.dp))

/-- R157, R234: the accumulator form of a read-modify-write, which pays no width penalty (R472 item 1). -/
def rmwAccInstr (op : Byte) (w : Width) (f : Word → Word) (g : Word → Flags) (s : State) : State :=
  ({ s with a := writeKeep w (f (s.getA w)) s.a, p := g (s.getA w) } : State).finish 1 (s.cycles op (baseCycles op))

/-- R157: `RMW(mode, w, f)` with the flags `g` of the operand: the accumulator form or the memory form. -/
def rmwInstr (op : Byte) (m : Mode) (w : Width) (f : Word → Word) (g : Word → Flags) (s : State) : State :=
  match m with
  | .acc => rmwAccInstr op w f g s
  | m => rmwMemInstr op m w f g s

/-- The shape of a one-byte instruction that makes no bus access beyond its opcode fetch: apply `f` and finish. -/
def impliedInstr (op : Byte) (f : State → State) (s : State) : State := (f s).finish 1 (s.cycles op (baseCycles op))

end Sys2Proof.Machine
end

