-- ==== Sys2Proof/Machine/ArithLogic.lean ====
section
/-! DEFINITION. ADC, SBC, AND, ORA, EOR, BIT, CMP, CPX, CPY, INC, DEC, INX, INY, DEX, DEY, TSB and TRB (42_arith_logic.md). -/

namespace Sys2Proof.Machine

/-- The free values that a decimal operation of R194 and R195 may draw, two limbs' worth (log 9). -/
def Bus.afterDecimal (d : Bool) (b : Bus) : Bus := { b with draws := b.draws + 2 * d.toNat }

/-- R196: ADC's effect. N and Z are those of the result, V that of the binary sum (decision D22). -/
def adcEffect (w : Width) (b : Word) (s : State) : State :=
  let a := s.getA w
  let r := if s.p.d then decAdd w s.bus.draws a b s.p.c else addBin w a b s.p.c
  { s with a := writeKeep w r.1 s.a, p := { s.p.nz w r.1 with v := overflow w a b s.p.c, c := r.2 },
           bus := s.bus.afterDecimal s.p.d }

/-- R197: SBC's effect; the binary form adds the complement. -/
def sbcEffect (w : Width) (b : Word) (s : State) : State :=
  let a := s.getA w
  let r := if s.p.d then decSub s.plat.decSbc16 w s.bus.draws a b s.p.c else addBin w a (complement w b) s.p.c
  { s with a := writeKeep w r.1 s.a, p := { s.p.nz w r.1 with v := overflow w a (complement w b) s.p.c, c := r.2 },
           bus := s.bus.afterDecimal s.p.d }

/-- R198 to R200: the effect of a logical operation `f` on the accumulator and the operand. -/
def logicEffect (f : Word → Word → Word) (w : Width) (v : Word) (s : State) : State :=
  (s.setA w (f (s.getA w) v)).setNZ w (f (s.getA w) v)

/-- R201: BIT's effect: Z always; N and V from the operand for the memory forms. -/
def bitEffect (memory : Bool) (w : Width) (v : Word) (s : State) : State :=
  let q := { s.p with z := s.getA w &&& v == 0#16 }
  { s with p := if memory then { q with n := topBit w v, v := secondBit w v } else q }

/-- R202: CMP's effect. -/
def cmpEffect (w : Width) (v : Word) (s : State) : State := { s with p := s.p.compare w (s.getA w) v }

/-- R203: CPX's effect. -/
def cpxEffect (w : Width) (v : Word) (s : State) : State := { s with p := s.p.compare w (trunc w s.x) v }

/-- R204: CPY's effect. -/
def cpyEffect (w : Width) (v : Word) (s : State) : State := { s with p := s.p.compare w (trunc w s.y) v }

/-- R196: ADC. -/
def adc (op : Byte) (m : Mode) (s : State) : State := readInstr op m s.wA (adcEffect s.wA) s

/-- R197: SBC. -/
def sbc (op : Byte) (m : Mode) (s : State) : State := readInstr op m s.wA (sbcEffect s.wA) s

/-- R198: AND. -/
def andInstr (op : Byte) (m : Mode) (s : State) : State := readInstr op m s.wA (logicEffect (fun a v => a &&& v) s.wA) s

/-- R199: ORA. -/
def ora (op : Byte) (m : Mode) (s : State) : State := readInstr op m s.wA (logicEffect (fun a v => a ||| v) s.wA) s

/-- R200: EOR. -/
def eor (op : Byte) (m : Mode) (s : State) : State := readInstr op m s.wA (logicEffect (fun a v => a ^^^ v) s.wA) s

/-- R201: BIT of a memory operand. -/
def bitMem (op : Byte) (m : Mode) (s : State) : State := readInstr op m s.wA (bitEffect true s.wA) s

/-- R201: BIT of an immediate, which writes only Z. -/
def bitImmediate (op : Byte) (m : Mode) (s : State) : State := readInstr op m s.wA (bitEffect false s.wA) s

/-- R202: CMP. -/
def cmpInstr (op : Byte) (m : Mode) (s : State) : State := readInstr op m s.wA (cmpEffect s.wA) s

/-- R203: CPX. -/
def cpx (op : Byte) (m : Mode) (s : State) : State := readInstr op m s.wX (cpxEffect s.wX) s

/-- R204: CPY. -/
def cpy (op : Byte) (m : Mode) (s : State) : State := readInstr op m s.wX (cpyEffect s.wX) s

/-- R205: `(v + 1) mod 2^w`. -/
def increment (w : Width) (v : Word) : Word := trunc w (v + 1#16)

/-- R206: `(v - 1) mod 2^w`. -/
def decrement (w : Width) (v : Word) : Word := trunc w (v - 1#16)

/-- R205: INC. -/
def inc (op : Byte) (m : Mode) (s : State) : State :=
  rmwInstr op m s.wA (increment s.wA) (fun v => s.p.nz s.wA (increment s.wA v)) s

/-- R206: DEC. -/
def dec (op : Byte) (m : Mode) (s : State) : State :=
  rmwInstr op m s.wA (decrement s.wA) (fun v => s.p.nz s.wA (decrement s.wA v)) s

/-- R207: INX. -/
def inx (op : Byte) (s : State) : State :=
  impliedInstr op (fun t => (t.setX t.wX (increment t.wX t.getX)).setNZ t.wX (increment t.wX t.getX)) s

/-- R208: INY. -/
def iny (op : Byte) (s : State) : State :=
  impliedInstr op (fun t => (t.setY t.wX (increment t.wX t.getY)).setNZ t.wX (increment t.wX t.getY)) s

/-- R209: DEX. -/
def dex (op : Byte) (s : State) : State :=
  impliedInstr op (fun t => (t.setX t.wX (decrement t.wX t.getX)).setNZ t.wX (decrement t.wX t.getX)) s

/-- R210: DEY. -/
def dey (op : Byte) (s : State) : State :=
  impliedInstr op (fun t => (t.setY t.wX (decrement t.wX t.getY)).setNZ t.wX (decrement t.wX t.getY)) s

/-- R211, R212: the flags of TSB and TRB: Z only, of the AND with the accumulator. -/
def testFlags (a v : Word) (p : Flags) : Flags := { p with z := a &&& v == 0#16 }

/-- R211: TSB. -/
def tsb (op : Byte) (m : Mode) (s : State) : State :=
  rmwInstr op m s.wA (fun v => v ||| s.getA s.wA) (fun v => testFlags (s.getA s.wA) v s.p) s

/-- R212: TRB. -/
def trb (op : Byte) (m : Mode) (s : State) : State :=
  rmwInstr op m s.wA (fun v => v &&& complement s.wA (s.getA s.wA)) (fun v => testFlags (s.getA s.wA) v s.p) s

/-- 0x61 `ADC (dp,X)` (R196). -/
def execAdcDpXInd (d : Byte) (s : State) : Result := .next (adc 0x61#8 (.dpXInd d) s)

/-- 0x63 `ADC sr,S` (R196). -/
def execAdcSr (d : Byte) (s : State) : Result := .next (adc 0x63#8 (.sr d) s)

/-- 0x65 `ADC dp` (R196). -/
def execAdcDp (d : Byte) (s : State) : Result := .next (adc 0x65#8 (.dp d) s)

/-- 0x67 `ADC [dp]` (R196). -/
def execAdcDpIndL (d : Byte) (s : State) : Result := .next (adc 0x67#8 (.dpIndL d) s)

/-- 0x69 `ADC #imm` (R196). -/
def execAdcImm (v : Word) (s : State) : Result := .next (adc 0x69#8 (.immM v) s)

/-- 0x6D `ADC abs` (R196). -/
def execAdcAbs (a : Word) (s : State) : Result := .next (adc 0x6D#8 (.abs a) s)

/-- 0x6F `ADC long` (R196). -/
def execAdcAbsL (l : Addr) (s : State) : Result := .next (adc 0x6F#8 (.absL l) s)

/-- 0x71 `ADC (dp),Y` (R196). -/
def execAdcDpIndY (d : Byte) (s : State) : Result := .next (adc 0x71#8 (.dpIndY d) s)

/-- 0x72 `ADC (dp)` (R196). -/
def execAdcDpInd (d : Byte) (s : State) : Result := .next (adc 0x72#8 (.dpInd d) s)

/-- 0x73 `ADC (sr,S),Y` (R196). -/
def execAdcSrIndY (d : Byte) (s : State) : Result := .next (adc 0x73#8 (.srIndY d) s)

/-- 0x75 `ADC dp,X` (R196). -/
def execAdcDpX (d : Byte) (s : State) : Result := .next (adc 0x75#8 (.dpX d) s)

/-- 0x77 `ADC [dp],Y` (R196). -/
def execAdcDpIndLY (d : Byte) (s : State) : Result := .next (adc 0x77#8 (.dpIndLY d) s)

/-- 0x79 `ADC abs,Y` (R196). -/
def execAdcAbsY (a : Word) (s : State) : Result := .next (adc 0x79#8 (.absY a) s)

/-- 0x7D `ADC abs,X` (R196). -/
def execAdcAbsX (a : Word) (s : State) : Result := .next (adc 0x7D#8 (.absX a) s)

/-- 0x7F `ADC long,X` (R196). -/
def execAdcAbsLX (l : Addr) (s : State) : Result := .next (adc 0x7F#8 (.absLX l) s)

/-- 0xE1 `SBC (dp,X)` (R197). -/
def execSbcDpXInd (d : Byte) (s : State) : Result := .next (sbc 0xE1#8 (.dpXInd d) s)

/-- 0xE3 `SBC sr,S` (R197). -/
def execSbcSr (d : Byte) (s : State) : Result := .next (sbc 0xE3#8 (.sr d) s)

/-- 0xE5 `SBC dp` (R197). -/
def execSbcDp (d : Byte) (s : State) : Result := .next (sbc 0xE5#8 (.dp d) s)

/-- 0xE7 `SBC [dp]` (R197). -/
def execSbcDpIndL (d : Byte) (s : State) : Result := .next (sbc 0xE7#8 (.dpIndL d) s)

/-- 0xE9 `SBC #imm` (R197). -/
def execSbcImm (v : Word) (s : State) : Result := .next (sbc 0xE9#8 (.immM v) s)

/-- 0xED `SBC abs` (R197). -/
def execSbcAbs (a : Word) (s : State) : Result := .next (sbc 0xED#8 (.abs a) s)

/-- 0xEF `SBC long` (R197). -/
def execSbcAbsL (l : Addr) (s : State) : Result := .next (sbc 0xEF#8 (.absL l) s)

/-- 0xF1 `SBC (dp),Y` (R197). -/
def execSbcDpIndY (d : Byte) (s : State) : Result := .next (sbc 0xF1#8 (.dpIndY d) s)

/-- 0xF2 `SBC (dp)` (R197). -/
def execSbcDpInd (d : Byte) (s : State) : Result := .next (sbc 0xF2#8 (.dpInd d) s)

/-- 0xF3 `SBC (sr,S),Y` (R197). -/
def execSbcSrIndY (d : Byte) (s : State) : Result := .next (sbc 0xF3#8 (.srIndY d) s)

/-- 0xF5 `SBC dp,X` (R197). -/
def execSbcDpX (d : Byte) (s : State) : Result := .next (sbc 0xF5#8 (.dpX d) s)

/-- 0xF7 `SBC [dp],Y` (R197). -/
def execSbcDpIndLY (d : Byte) (s : State) : Result := .next (sbc 0xF7#8 (.dpIndLY d) s)

/-- 0xF9 `SBC abs,Y` (R197). -/
def execSbcAbsY (a : Word) (s : State) : Result := .next (sbc 0xF9#8 (.absY a) s)

/-- 0xFD `SBC abs,X` (R197). -/
def execSbcAbsX (a : Word) (s : State) : Result := .next (sbc 0xFD#8 (.absX a) s)

/-- 0xFF `SBC long,X` (R197). -/
def execSbcAbsLX (l : Addr) (s : State) : Result := .next (sbc 0xFF#8 (.absLX l) s)

/-- 0x21 `AND (dp,X)` (R198). -/
def execAndDpXInd (d : Byte) (s : State) : Result := .next (andInstr 0x21#8 (.dpXInd d) s)

/-- 0x23 `AND sr,S` (R198). -/
def execAndSr (d : Byte) (s : State) : Result := .next (andInstr 0x23#8 (.sr d) s)

/-- 0x25 `AND dp` (R198). -/
def execAndDp (d : Byte) (s : State) : Result := .next (andInstr 0x25#8 (.dp d) s)

/-- 0x27 `AND [dp]` (R198). -/
def execAndDpIndL (d : Byte) (s : State) : Result := .next (andInstr 0x27#8 (.dpIndL d) s)

/-- 0x29 `AND #imm` (R198). -/
def execAndImm (v : Word) (s : State) : Result := .next (andInstr 0x29#8 (.immM v) s)

/-- 0x2D `AND abs` (R198). -/
def execAndAbs (a : Word) (s : State) : Result := .next (andInstr 0x2D#8 (.abs a) s)

/-- 0x2F `AND long` (R198). -/
def execAndAbsL (l : Addr) (s : State) : Result := .next (andInstr 0x2F#8 (.absL l) s)

/-- 0x31 `AND (dp),Y` (R198). -/
def execAndDpIndY (d : Byte) (s : State) : Result := .next (andInstr 0x31#8 (.dpIndY d) s)

/-- 0x32 `AND (dp)` (R198). -/
def execAndDpInd (d : Byte) (s : State) : Result := .next (andInstr 0x32#8 (.dpInd d) s)

/-- 0x33 `AND (sr,S),Y` (R198). -/
def execAndSrIndY (d : Byte) (s : State) : Result := .next (andInstr 0x33#8 (.srIndY d) s)

/-- 0x35 `AND dp,X` (R198). -/
def execAndDpX (d : Byte) (s : State) : Result := .next (andInstr 0x35#8 (.dpX d) s)

/-- 0x37 `AND [dp],Y` (R198). -/
def execAndDpIndLY (d : Byte) (s : State) : Result := .next (andInstr 0x37#8 (.dpIndLY d) s)

/-- 0x39 `AND abs,Y` (R198). -/
def execAndAbsY (a : Word) (s : State) : Result := .next (andInstr 0x39#8 (.absY a) s)

/-- 0x3D `AND abs,X` (R198). -/
def execAndAbsX (a : Word) (s : State) : Result := .next (andInstr 0x3D#8 (.absX a) s)

/-- 0x3F `AND long,X` (R198). -/
def execAndAbsLX (l : Addr) (s : State) : Result := .next (andInstr 0x3F#8 (.absLX l) s)

/-- 0x01 `ORA (dp,X)` (R199). -/
def execOraDpXInd (d : Byte) (s : State) : Result := .next (ora 0x01#8 (.dpXInd d) s)

/-- 0x03 `ORA sr,S` (R199). -/
def execOraSr (d : Byte) (s : State) : Result := .next (ora 0x03#8 (.sr d) s)

/-- 0x05 `ORA dp` (R199). -/
def execOraDp (d : Byte) (s : State) : Result := .next (ora 0x05#8 (.dp d) s)

/-- 0x07 `ORA [dp]` (R199). -/
def execOraDpIndL (d : Byte) (s : State) : Result := .next (ora 0x07#8 (.dpIndL d) s)

/-- 0x09 `ORA #imm` (R199). -/
def execOraImm (v : Word) (s : State) : Result := .next (ora 0x09#8 (.immM v) s)

/-- 0x0D `ORA abs` (R199). -/
def execOraAbs (a : Word) (s : State) : Result := .next (ora 0x0D#8 (.abs a) s)

/-- 0x0F `ORA long` (R199). -/
def execOraAbsL (l : Addr) (s : State) : Result := .next (ora 0x0F#8 (.absL l) s)

/-- 0x11 `ORA (dp),Y` (R199). -/
def execOraDpIndY (d : Byte) (s : State) : Result := .next (ora 0x11#8 (.dpIndY d) s)

/-- 0x12 `ORA (dp)` (R199). -/
def execOraDpInd (d : Byte) (s : State) : Result := .next (ora 0x12#8 (.dpInd d) s)

/-- 0x13 `ORA (sr,S),Y` (R199). -/
def execOraSrIndY (d : Byte) (s : State) : Result := .next (ora 0x13#8 (.srIndY d) s)

/-- 0x15 `ORA dp,X` (R199). -/
def execOraDpX (d : Byte) (s : State) : Result := .next (ora 0x15#8 (.dpX d) s)

/-- 0x17 `ORA [dp],Y` (R199). -/
def execOraDpIndLY (d : Byte) (s : State) : Result := .next (ora 0x17#8 (.dpIndLY d) s)

/-- 0x19 `ORA abs,Y` (R199). -/
def execOraAbsY (a : Word) (s : State) : Result := .next (ora 0x19#8 (.absY a) s)

/-- 0x1D `ORA abs,X` (R199). -/
def execOraAbsX (a : Word) (s : State) : Result := .next (ora 0x1D#8 (.absX a) s)

/-- 0x1F `ORA long,X` (R199). -/
def execOraAbsLX (l : Addr) (s : State) : Result := .next (ora 0x1F#8 (.absLX l) s)

/-- 0x41 `EOR (dp,X)` (R200). -/
def execEorDpXInd (d : Byte) (s : State) : Result := .next (eor 0x41#8 (.dpXInd d) s)

/-- 0x43 `EOR sr,S` (R200). -/
def execEorSr (d : Byte) (s : State) : Result := .next (eor 0x43#8 (.sr d) s)

/-- 0x45 `EOR dp` (R200). -/
def execEorDp (d : Byte) (s : State) : Result := .next (eor 0x45#8 (.dp d) s)

/-- 0x47 `EOR [dp]` (R200). -/
def execEorDpIndL (d : Byte) (s : State) : Result := .next (eor 0x47#8 (.dpIndL d) s)

/-- 0x49 `EOR #imm` (R200). -/
def execEorImm (v : Word) (s : State) : Result := .next (eor 0x49#8 (.immM v) s)

/-- 0x4D `EOR abs` (R200). -/
def execEorAbs (a : Word) (s : State) : Result := .next (eor 0x4D#8 (.abs a) s)

/-- 0x4F `EOR long` (R200). -/
def execEorAbsL (l : Addr) (s : State) : Result := .next (eor 0x4F#8 (.absL l) s)

/-- 0x51 `EOR (dp),Y` (R200). -/
def execEorDpIndY (d : Byte) (s : State) : Result := .next (eor 0x51#8 (.dpIndY d) s)

/-- 0x52 `EOR (dp)` (R200). -/
def execEorDpInd (d : Byte) (s : State) : Result := .next (eor 0x52#8 (.dpInd d) s)

/-- 0x53 `EOR (sr,S),Y` (R200). -/
def execEorSrIndY (d : Byte) (s : State) : Result := .next (eor 0x53#8 (.srIndY d) s)

/-- 0x55 `EOR dp,X` (R200). -/
def execEorDpX (d : Byte) (s : State) : Result := .next (eor 0x55#8 (.dpX d) s)

/-- 0x57 `EOR [dp],Y` (R200). -/
def execEorDpIndLY (d : Byte) (s : State) : Result := .next (eor 0x57#8 (.dpIndLY d) s)

/-- 0x59 `EOR abs,Y` (R200). -/
def execEorAbsY (a : Word) (s : State) : Result := .next (eor 0x59#8 (.absY a) s)

/-- 0x5D `EOR abs,X` (R200). -/
def execEorAbsX (a : Word) (s : State) : Result := .next (eor 0x5D#8 (.absX a) s)

/-- 0x5F `EOR long,X` (R200). -/
def execEorAbsLX (l : Addr) (s : State) : Result := .next (eor 0x5F#8 (.absLX l) s)

/-- 0x24 `BIT dp` (R201). -/
def execBitDp (d : Byte) (s : State) : Result := .next (bitMem 0x24#8 (.dp d) s)

/-- 0x2C `BIT abs` (R201). -/
def execBitAbs (a : Word) (s : State) : Result := .next (bitMem 0x2C#8 (.abs a) s)

/-- 0x34 `BIT dp,X` (R201). -/
def execBitDpX (d : Byte) (s : State) : Result := .next (bitMem 0x34#8 (.dpX d) s)

/-- 0x3C `BIT abs,X` (R201). -/
def execBitAbsX (a : Word) (s : State) : Result := .next (bitMem 0x3C#8 (.absX a) s)

/-- 0x89 `BIT #imm` (R201). -/
def execBitImm (v : Word) (s : State) : Result := .next (bitImmediate 0x89#8 (.immM v) s)

/-- 0xC1 `CMP (dp,X)` (R202). -/
def execCmpDpXInd (d : Byte) (s : State) : Result := .next (cmpInstr 0xC1#8 (.dpXInd d) s)

/-- 0xC3 `CMP sr,S` (R202). -/
def execCmpSr (d : Byte) (s : State) : Result := .next (cmpInstr 0xC3#8 (.sr d) s)

/-- 0xC5 `CMP dp` (R202). -/
def execCmpDp (d : Byte) (s : State) : Result := .next (cmpInstr 0xC5#8 (.dp d) s)

/-- 0xC7 `CMP [dp]` (R202). -/
def execCmpDpIndL (d : Byte) (s : State) : Result := .next (cmpInstr 0xC7#8 (.dpIndL d) s)

/-- 0xC9 `CMP #imm` (R202). -/
def execCmpImm (v : Word) (s : State) : Result := .next (cmpInstr 0xC9#8 (.immM v) s)

/-- 0xCD `CMP abs` (R202). -/
def execCmpAbs (a : Word) (s : State) : Result := .next (cmpInstr 0xCD#8 (.abs a) s)

/-- 0xCF `CMP long` (R202). -/
def execCmpAbsL (l : Addr) (s : State) : Result := .next (cmpInstr 0xCF#8 (.absL l) s)

/-- 0xD1 `CMP (dp),Y` (R202). -/
def execCmpDpIndY (d : Byte) (s : State) : Result := .next (cmpInstr 0xD1#8 (.dpIndY d) s)

/-- 0xD2 `CMP (dp)` (R202). -/
def execCmpDpInd (d : Byte) (s : State) : Result := .next (cmpInstr 0xD2#8 (.dpInd d) s)

/-- 0xD3 `CMP (sr,S),Y` (R202). -/
def execCmpSrIndY (d : Byte) (s : State) : Result := .next (cmpInstr 0xD3#8 (.srIndY d) s)

/-- 0xD5 `CMP dp,X` (R202). -/
def execCmpDpX (d : Byte) (s : State) : Result := .next (cmpInstr 0xD5#8 (.dpX d) s)

/-- 0xD7 `CMP [dp],Y` (R202). -/
def execCmpDpIndLY (d : Byte) (s : State) : Result := .next (cmpInstr 0xD7#8 (.dpIndLY d) s)

/-- 0xD9 `CMP abs,Y` (R202). -/
def execCmpAbsY (a : Word) (s : State) : Result := .next (cmpInstr 0xD9#8 (.absY a) s)

/-- 0xDD `CMP abs,X` (R202). -/
def execCmpAbsX (a : Word) (s : State) : Result := .next (cmpInstr 0xDD#8 (.absX a) s)

/-- 0xDF `CMP long,X` (R202). -/
def execCmpAbsLX (l : Addr) (s : State) : Result := .next (cmpInstr 0xDF#8 (.absLX l) s)

/-- 0xE0 `CPX #imm` (R203). -/
def execCpxImm (v : Word) (s : State) : Result := .next (cpx 0xE0#8 (.immX v) s)

/-- 0xE4 `CPX dp` (R203). -/
def execCpxDp (d : Byte) (s : State) : Result := .next (cpx 0xE4#8 (.dp d) s)

/-- 0xEC `CPX abs` (R203). -/
def execCpxAbs (a : Word) (s : State) : Result := .next (cpx 0xEC#8 (.abs a) s)

/-- 0xC0 `CPY #imm` (R204). -/
def execCpyImm (v : Word) (s : State) : Result := .next (cpy 0xC0#8 (.immX v) s)

/-- 0xC4 `CPY dp` (R204). -/
def execCpyDp (d : Byte) (s : State) : Result := .next (cpy 0xC4#8 (.dp d) s)

/-- 0xCC `CPY abs` (R204). -/
def execCpyAbs (a : Word) (s : State) : Result := .next (cpy 0xCC#8 (.abs a) s)

/-- 0x1A `INC A` (R205). -/
def execIncA (s : State) : Result := .next (inc 0x1A#8 .acc s)

/-- 0xE6 `INC dp` (R205). -/
def execIncDp (d : Byte) (s : State) : Result := .next (inc 0xE6#8 (.dp d) s)

/-- 0xEE `INC abs` (R205). -/
def execIncAbs (a : Word) (s : State) : Result := .next (inc 0xEE#8 (.abs a) s)

/-- 0xF6 `INC dp,X` (R205). -/
def execIncDpX (d : Byte) (s : State) : Result := .next (inc 0xF6#8 (.dpX d) s)

/-- 0xFE `INC abs,X` (R205). -/
def execIncAbsX (a : Word) (s : State) : Result := .next (inc 0xFE#8 (.absX a) s)

/-- 0x3A `DEC A` (R206). -/
def execDecA (s : State) : Result := .next (dec 0x3A#8 .acc s)

/-- 0xC6 `DEC dp` (R206). -/
def execDecDp (d : Byte) (s : State) : Result := .next (dec 0xC6#8 (.dp d) s)

/-- 0xCE `DEC abs` (R206). -/
def execDecAbs (a : Word) (s : State) : Result := .next (dec 0xCE#8 (.abs a) s)

/-- 0xD6 `DEC dp,X` (R206). -/
def execDecDpX (d : Byte) (s : State) : Result := .next (dec 0xD6#8 (.dpX d) s)

/-- 0xDE `DEC abs,X` (R206). -/
def execDecAbsX (a : Word) (s : State) : Result := .next (dec 0xDE#8 (.absX a) s)

/-- 0xE8 `INX` (R207). -/
def execInx (s : State) : Result := .next (inx 0xE8#8 s)

/-- 0xC8 `INY` (R208). -/
def execIny (s : State) : Result := .next (iny 0xC8#8 s)

/-- 0xCA `DEX` (R209). -/
def execDex (s : State) : Result := .next (dex 0xCA#8 s)

/-- 0x88 `DEY` (R210). -/
def execDey (s : State) : Result := .next (dey 0x88#8 s)

/-- 0x04 `TSB dp` (R211). -/
def execTsbDp (d : Byte) (s : State) : Result := .next (tsb 0x04#8 (.dp d) s)

/-- 0x0C `TSB abs` (R211). -/
def execTsbAbs (a : Word) (s : State) : Result := .next (tsb 0x0C#8 (.abs a) s)

/-- 0x14 `TRB dp` (R212). -/
def execTrbDp (d : Byte) (s : State) : Result := .next (trb 0x14#8 (.dp d) s)

/-- 0x1C `TRB abs` (R212). -/
def execTrbAbs (a : Word) (s : State) : Result := .next (trb 0x1C#8 (.abs a) s)

end Sys2Proof.Machine
end

