-- ==== Sys2Proof/Machine/BlockMove.lean ====
section
/-! DEFINITION. MVN and MVP (49_block_move.md): the whole move is one step. -/

namespace Sys2Proof.Machine

/-- R362: one index step, +1 for MVN and -1 for MVP, at width `w`. -/
def indexStep (up : Bool) (w : Width) (v : Word) : Word := trunc w (if up then v + 1#16 else v - 1#16)

/-- R362: one iteration of the loop: copy a byte, step X and Y at width wX, decrement the 16-bit count. -/
def blockByte (up : Bool) (dst src : Byte) (s : State) : State :=
  let r := busRead8 s.plat ⟨src, s.getX⟩ s.bus
  { s with bus := busWrite8 s.plat ⟨dst, s.getY⟩ r.1 r.2, x := indexStep up s.wX s.getX,
           y := indexStep up s.wX s.getY, a := s.a - 1#16 }

/-- `n` iterations of the loop. -/
def blockLoop (up : Bool) (dst src : Byte) : Nat → State → State
  | 0, s => s
  | n + 1, s => blockLoop up dst src n (blockByte up dst src s)

/-- R362: how many bytes a move copies: the loop ends when the decremented count is 0xFFFF, after A + 1 bytes. -/
def blockCount (s : State) : Nat := s.a.toNat + 1

/-- R362, R475: the block move: the loop, DBR becomes the destination bank, and 7 cycles a byte. -/
def blockMove (op : Byte) (up : Bool) (dst src : Byte) (s : State) : State :=
  let n := blockCount s
  ({ blockLoop up dst src n s with dbr := dst } : State).finish 3 (s.cycles op (7 * n))

/-- 0x54 `MVN srcbk,dstbk` (R360). -/
def execMvn (dst : Byte) (src : Byte) (s : State) : Result := .next (blockMove 0x54#8 true dst src s)

/-- 0x44 `MVP srcbk,dstbk` (R361). -/
def execMvp (dst : Byte) (src : Byte) (s : State) : Result := .next (blockMove 0x44#8 false dst src s)

end Sys2Proof.Machine
end

