-- ==== Sys2Proof/Machine/Control.lean ====
section
/-! DEFINITION. The branches, jumps, calls and returns (44_control.md). None writes a status flag. -/

namespace Sys2Proof.Machine

/-- R473: the cycles of a short branch: +1 if taken, and in emulation mode +1 more if the taken branch crosses a page. -/
def branchCycles (op : Byte) (taken e : Bool) (next target : Word) : Nat :=
  baseCycles op + taken.toNat + (taken && e && differentPages next target).toNat

/-- R240: the branch core. -/
def branch (op : Byte) (cond : Bool) (r : Byte) (s : State) : State :=
  let next := s.pc + 2#16
  let target := s.rel8Target r
  s.jumpTo (if cond then target else next) (s.cycles op (branchCycles op cond s.p.e next target))

/-- R250: BRL. -/
def brl (op : Byte) (r : Word) (s : State) : State := s.jumpTo (s.rel16Target r) (s.cycles op (baseCycles op))

/-- R251: JMP abs, within the program bank. -/
def jmp (op : Byte) (t : Word) (s : State) : State := s.jumpTo t (s.cycles op (baseCycles op))

/-- R252, R253: JMP (abs) and JMP (abs,X). -/
def jmpPointer (op : Byte) (m : Mode) (s : State) : State :=
  let r := jumpPointer m s
  ({ s with bus := r.2 } : State).jumpTo r.1 (s.cycles op (baseCycles op))

/-- R254: JML long. -/
def jml (op : Byte) (t : Addr) (s : State) : State :=
  ({ s with pbr := t.bank } : State).jumpTo t.offset (s.cycles op (baseCycles op))

/-- R255: JML [abs]. -/
def jmlPointer (op : Byte) (m : Mode) (s : State) : State :=
  let r := jumpPointerLong m s
  ({ s with bus := r.2, pbr := r.1.bank } : State).jumpTo r.1.offset (s.cycles op (baseCycles op))

/-- R256: JSR abs: push the address of the instruction's last byte. -/
def jsr (op : Byte) (t : Word) (s : State) : State := (s.push16 (s.pc + 2#16)).jumpTo t (s.cycles op (baseCycles op))

/-- R257: JSR (abs,X): the pointer is read before the push (decision D7). -/
def jsrPointer (op : Byte) (m : Mode) (s : State) : State :=
  let r := jumpPointer m s
  (({ s with bus := r.2 } : State).push16 (s.pc + 2#16)).jumpTo r.1 (s.cycles op (baseCycles op))

/-- R258: JSL: push the bank, then the address of the instruction's last byte. -/
def jsl (op : Byte) (t : Addr) (s : State) : State :=
  ({ s.push24 s.pbr (s.pc + 3#16) with pbr := t.bank } : State).jumpTo t.offset (s.cycles op (baseCycles op))

/-- R259: RTS. -/
def rts (op : Byte) (s : State) : State :=
  let r := s.pull16
  r.2.jumpTo (r.1 + 1#16) (s.cycles op (baseCycles op))

/-- R260: RTL. -/
def rtl (op : Byte) (s : State) : State :=
  let r := s.pull24
  ({ r.2 with pbr := r.1.bank } : State).jumpTo (r.1.offset + 1#16) (s.cycles op (baseCycles op))

/-- 0x90 `BCC rel8` (R241). -/
def execBcc (r : Byte) (s : State) : Result := .next (branch 0x90#8 (!s.p.c) r s)

/-- 0xB0 `BCS rel8` (R242). -/
def execBcs (r : Byte) (s : State) : Result := .next (branch 0xB0#8 s.p.c r s)

/-- 0xF0 `BEQ rel8` (R243). -/
def execBeq (r : Byte) (s : State) : Result := .next (branch 0xF0#8 s.p.z r s)

/-- 0xD0 `BNE rel8` (R244). -/
def execBne (r : Byte) (s : State) : Result := .next (branch 0xD0#8 (!s.p.z) r s)

/-- 0x30 `BMI rel8` (R245). -/
def execBmi (r : Byte) (s : State) : Result := .next (branch 0x30#8 s.p.n r s)

/-- 0x10 `BPL rel8` (R246). -/
def execBpl (r : Byte) (s : State) : Result := .next (branch 0x10#8 (!s.p.n) r s)

/-- 0x50 `BVC rel8` (R247). -/
def execBvc (r : Byte) (s : State) : Result := .next (branch 0x50#8 (!s.p.v) r s)

/-- 0x70 `BVS rel8` (R248). -/
def execBvs (r : Byte) (s : State) : Result := .next (branch 0x70#8 s.p.v r s)

/-- 0x80 `BRA rel8` (R249). -/
def execBra (r : Byte) (s : State) : Result := .next (branch 0x80#8 true r s)

/-- 0x82 `BRL rel16` (R250). -/
def execBrl (r : Word) (s : State) : Result := .next (brl 0x82#8 r s)

/-- 0x4C `JMP abs` (R251). -/
def execJmpAbs (a : Word) (s : State) : Result := .next (jmp 0x4C#8 a s)

/-- 0x6C `JMP (abs)` (R252). -/
def execJmpAbsInd (a : Word) (s : State) : Result := .next (jmpPointer 0x6C#8 (.absInd a) s)

/-- 0x7C `JMP (abs,X)` (R253). -/
def execJmpAbsXInd (a : Word) (s : State) : Result := .next (jmpPointer 0x7C#8 (.absXInd a) s)

/-- 0x5C `JML long` (R254). -/
def execJmlAbsL (l : Addr) (s : State) : Result := .next (jml 0x5C#8 l s)

/-- 0xDC `JML [abs]` (R255). -/
def execJmlAbsIndL (a : Word) (s : State) : Result := .next (jmlPointer 0xDC#8 (.absIndL a) s)

/-- 0x20 `JSR abs` (R256). -/
def execJsrAbs (a : Word) (s : State) : Result := .next (jsr 0x20#8 a s)

/-- 0xFC `JSR (abs,X)` (R257). -/
def execJsrAbsXInd (a : Word) (s : State) : Result := .next (jsrPointer 0xFC#8 (.absXInd a) s)

/-- 0x22 `JSL long` (R258). -/
def execJslAbsL (l : Addr) (s : State) : Result := .next (jsl 0x22#8 l s)

/-- 0x60 `RTS` (R259). -/
def execRts (s : State) : Result := .next (rts 0x60#8 s)

/-- 0x6B `RTL` (R260). -/
def execRtl (s : State) : Result := .next (rtl 0x6B#8 s)

end Sys2Proof.Machine
end

