-- ==== Sys2Proof/Machine/FlagsMode.lean ====
section
/-! DEFINITION. CLC, SEC, CLI, SEI, CLD, SED, CLV, REP, SEP and XCE (47_flags_mode.md). -/

namespace Sys2Proof.Machine

/-- R320 to R326: the shape of a single-flag instruction. -/
def flagInstr (op : Byte) (f : Flags → Flags) (s : State) : State := impliedInstr op (fun t => { t with p := f t.p }) s

/-- R327: REP. -/
def rep (op : Byte) (v : Byte) (s : State) : State := (s.resetBits v).finish 2 (s.cycles op (baseCycles op))

/-- R328: SEP. -/
def sep (op : Byte) (v : Byte) (s : State) : State := (s.setBits v).finish 2 (s.cycles op (baseCycles op))

/-- R329: the exchange of C and E and, when E is then 1, the forcing of the widths, the index registers and the
stack. -/
def xceEffect (s : State) : State :=
  let q := { s.p with e := s.p.c, c := s.p.e }
  if q.e then
    { s with p := { q with m := true, x := true }, x := trunc .w8 s.x, y := trunc .w8 s.y, sp := rehome s.sp }
  else { s with p := q }

/-- R329: XCE. -/
def xce (op : Byte) (s : State) : State := impliedInstr op xceEffect s

/-- 0x18 `CLC` (R320). -/
def execClc (s : State) : Result := .next (flagInstr 0x18#8 (fun p => { p with c := false }) s)

/-- 0x38 `SEC` (R321). -/
def execSec (s : State) : Result := .next (flagInstr 0x38#8 (fun p => { p with c := true }) s)

/-- 0x58 `CLI` (R322). -/
def execCli (s : State) : Result := .next (flagInstr 0x58#8 (fun p => { p with i := false }) s)

/-- 0x78 `SEI` (R323). -/
def execSei (s : State) : Result := .next (flagInstr 0x78#8 (fun p => { p with i := true }) s)

/-- 0xD8 `CLD` (R324). -/
def execCld (s : State) : Result := .next (flagInstr 0xD8#8 (fun p => { p with d := false }) s)

/-- 0xF8 `SED` (R325). -/
def execSed (s : State) : Result := .next (flagInstr 0xF8#8 (fun p => { p with d := true }) s)

/-- 0xB8 `CLV` (R326). -/
def execClv (s : State) : Result := .next (flagInstr 0xB8#8 (fun p => { p with v := false }) s)

/-- 0xC2 `REP #imm8` (R327). -/
def execRep (v : Byte) (s : State) : Result := .next (rep 0xC2#8 v s)

/-- 0xE2 `SEP #imm8` (R328). -/
def execSep (v : Byte) (s : State) : Result := .next (sep 0xE2#8 v s)

/-- 0xFB `XCE` (R329). -/
def execXce (s : State) : Result := .next (xce 0xFB#8 s)

end Sys2Proof.Machine
end

