-- ==== Sys2Proof/Machine/LoadStore.lean ====
section
/-! DEFINITION. LDA, LDX, LDY, STA, STX, STY and STZ (41_load_store.md). -/

namespace Sys2Proof.Machine

/-- R170: LDA's effect: the accumulator at its width, then N and Z. -/
def ldaEffect (w : Width) (v : Word) (s : State) : State := (s.setA w v).setNZ w v

/-- R171: LDX's effect. -/
def ldxEffect (w : Width) (v : Word) (s : State) : State := (s.setX w v).setNZ w v

/-- R172: LDY's effect. -/
def ldyEffect (w : Width) (v : Word) (s : State) : State := (s.setY w v).setNZ w v

/-- R170: LDA. -/
def lda (op : Byte) (m : Mode) (s : State) : State := readInstr op m s.wA (ldaEffect s.wA) s

/-- R171: LDX. -/
def ldx (op : Byte) (m : Mode) (s : State) : State := readInstr op m s.wX (ldxEffect s.wX) s

/-- R172: LDY. -/
def ldy (op : Byte) (m : Mode) (s : State) : State := readInstr op m s.wX (ldyEffect s.wX) s

/-- R173: STA. -/
def sta (op : Byte) (m : Mode) (s : State) : State := storeInstr op m s.wA (s.getA s.wA) s

/-- R174: STX. -/
def stx (op : Byte) (m : Mode) (s : State) : State := storeInstr op m s.wX s.getX s

/-- R175: STY. -/
def sty (op : Byte) (m : Mode) (s : State) : State := storeInstr op m s.wX s.getY s

/-- R176: STZ, at the accumulator width. -/
def stz (op : Byte) (m : Mode) (s : State) : State := storeInstr op m s.wA 0x0000#16 s

/-- 0xA1 `LDA (dp,X)` (R170). -/
def execLdaDpXInd (d : Byte) (s : State) : Result := .next (lda 0xA1#8 (.dpXInd d) s)

/-- 0xA3 `LDA sr,S` (R170). -/
def execLdaSr (d : Byte) (s : State) : Result := .next (lda 0xA3#8 (.sr d) s)

/-- 0xA5 `LDA dp` (R170). -/
def execLdaDp (d : Byte) (s : State) : Result := .next (lda 0xA5#8 (.dp d) s)

/-- 0xA7 `LDA [dp]` (R170). -/
def execLdaDpIndL (d : Byte) (s : State) : Result := .next (lda 0xA7#8 (.dpIndL d) s)

/-- 0xA9 `LDA #imm` (R170). -/
def execLdaImm (v : Word) (s : State) : Result := .next (lda 0xA9#8 (.immM v) s)

/-- 0xAD `LDA abs` (R170). -/
def execLdaAbs (a : Word) (s : State) : Result := .next (lda 0xAD#8 (.abs a) s)

/-- 0xAF `LDA long` (R170). -/
def execLdaAbsL (l : Addr) (s : State) : Result := .next (lda 0xAF#8 (.absL l) s)

/-- 0xB1 `LDA (dp),Y` (R170). -/
def execLdaDpIndY (d : Byte) (s : State) : Result := .next (lda 0xB1#8 (.dpIndY d) s)

/-- 0xB2 `LDA (dp)` (R170). -/
def execLdaDpInd (d : Byte) (s : State) : Result := .next (lda 0xB2#8 (.dpInd d) s)

/-- 0xB3 `LDA (sr,S),Y` (R170). -/
def execLdaSrIndY (d : Byte) (s : State) : Result := .next (lda 0xB3#8 (.srIndY d) s)

/-- 0xB5 `LDA dp,X` (R170). -/
def execLdaDpX (d : Byte) (s : State) : Result := .next (lda 0xB5#8 (.dpX d) s)

/-- 0xB7 `LDA [dp],Y` (R170). -/
def execLdaDpIndLY (d : Byte) (s : State) : Result := .next (lda 0xB7#8 (.dpIndLY d) s)

/-- 0xB9 `LDA abs,Y` (R170). -/
def execLdaAbsY (a : Word) (s : State) : Result := .next (lda 0xB9#8 (.absY a) s)

/-- 0xBD `LDA abs,X` (R170). -/
def execLdaAbsX (a : Word) (s : State) : Result := .next (lda 0xBD#8 (.absX a) s)

/-- 0xBF `LDA long,X` (R170). -/
def execLdaAbsLX (l : Addr) (s : State) : Result := .next (lda 0xBF#8 (.absLX l) s)

/-- 0xA2 `LDX #imm` (R171). -/
def execLdxImm (v : Word) (s : State) : Result := .next (ldx 0xA2#8 (.immX v) s)

/-- 0xA6 `LDX dp` (R171). -/
def execLdxDp (d : Byte) (s : State) : Result := .next (ldx 0xA6#8 (.dp d) s)

/-- 0xAE `LDX abs` (R171). -/
def execLdxAbs (a : Word) (s : State) : Result := .next (ldx 0xAE#8 (.abs a) s)

/-- 0xB6 `LDX dp,Y` (R171). -/
def execLdxDpY (d : Byte) (s : State) : Result := .next (ldx 0xB6#8 (.dpY d) s)

/-- 0xBE `LDX abs,Y` (R171). -/
def execLdxAbsY (a : Word) (s : State) : Result := .next (ldx 0xBE#8 (.absY a) s)

/-- 0xA0 `LDY #imm` (R172). -/
def execLdyImm (v : Word) (s : State) : Result := .next (ldy 0xA0#8 (.immX v) s)

/-- 0xA4 `LDY dp` (R172). -/
def execLdyDp (d : Byte) (s : State) : Result := .next (ldy 0xA4#8 (.dp d) s)

/-- 0xAC `LDY abs` (R172). -/
def execLdyAbs (a : Word) (s : State) : Result := .next (ldy 0xAC#8 (.abs a) s)

/-- 0xB4 `LDY dp,X` (R172). -/
def execLdyDpX (d : Byte) (s : State) : Result := .next (ldy 0xB4#8 (.dpX d) s)

/-- 0xBC `LDY abs,X` (R172). -/
def execLdyAbsX (a : Word) (s : State) : Result := .next (ldy 0xBC#8 (.absX a) s)

/-- 0x81 `STA (dp,X)` (R173). -/
def execStaDpXInd (d : Byte) (s : State) : Result := .next (sta 0x81#8 (.dpXInd d) s)

/-- 0x83 `STA sr,S` (R173). -/
def execStaSr (d : Byte) (s : State) : Result := .next (sta 0x83#8 (.sr d) s)

/-- 0x85 `STA dp` (R173). -/
def execStaDp (d : Byte) (s : State) : Result := .next (sta 0x85#8 (.dp d) s)

/-- 0x87 `STA [dp]` (R173). -/
def execStaDpIndL (d : Byte) (s : State) : Result := .next (sta 0x87#8 (.dpIndL d) s)

/-- 0x8D `STA abs` (R173). -/
def execStaAbs (a : Word) (s : State) : Result := .next (sta 0x8D#8 (.abs a) s)

/-- 0x8F `STA long` (R173). -/
def execStaAbsL (l : Addr) (s : State) : Result := .next (sta 0x8F#8 (.absL l) s)

/-- 0x91 `STA (dp),Y` (R173). -/
def execStaDpIndY (d : Byte) (s : State) : Result := .next (sta 0x91#8 (.dpIndY d) s)

/-- 0x92 `STA (dp)` (R173). -/
def execStaDpInd (d : Byte) (s : State) : Result := .next (sta 0x92#8 (.dpInd d) s)

/-- 0x93 `STA (sr,S),Y` (R173). -/
def execStaSrIndY (d : Byte) (s : State) : Result := .next (sta 0x93#8 (.srIndY d) s)

/-- 0x95 `STA dp,X` (R173). -/
def execStaDpX (d : Byte) (s : State) : Result := .next (sta 0x95#8 (.dpX d) s)

/-- 0x97 `STA [dp],Y` (R173). -/
def execStaDpIndLY (d : Byte) (s : State) : Result := .next (sta 0x97#8 (.dpIndLY d) s)

/-- 0x99 `STA abs,Y` (R173). -/
def execStaAbsY (a : Word) (s : State) : Result := .next (sta 0x99#8 (.absY a) s)

/-- 0x9D `STA abs,X` (R173). -/
def execStaAbsX (a : Word) (s : State) : Result := .next (sta 0x9D#8 (.absX a) s)

/-- 0x9F `STA long,X` (R173). -/
def execStaAbsLX (l : Addr) (s : State) : Result := .next (sta 0x9F#8 (.absLX l) s)

/-- 0x86 `STX dp` (R174). -/
def execStxDp (d : Byte) (s : State) : Result := .next (stx 0x86#8 (.dp d) s)

/-- 0x8E `STX abs` (R174). -/
def execStxAbs (a : Word) (s : State) : Result := .next (stx 0x8E#8 (.abs a) s)

/-- 0x96 `STX dp,Y` (R174). -/
def execStxDpY (d : Byte) (s : State) : Result := .next (stx 0x96#8 (.dpY d) s)

/-- 0x84 `STY dp` (R175). -/
def execStyDp (d : Byte) (s : State) : Result := .next (sty 0x84#8 (.dp d) s)

/-- 0x8C `STY abs` (R175). -/
def execStyAbs (a : Word) (s : State) : Result := .next (sty 0x8C#8 (.abs a) s)

/-- 0x94 `STY dp,X` (R175). -/
def execStyDpX (d : Byte) (s : State) : Result := .next (sty 0x94#8 (.dpX d) s)

/-- 0x64 `STZ dp` (R176). -/
def execStzDp (d : Byte) (s : State) : Result := .next (stz 0x64#8 (.dp d) s)

/-- 0x74 `STZ dp,X` (R176). -/
def execStzDpX (d : Byte) (s : State) : Result := .next (stz 0x74#8 (.dpX d) s)

/-- 0x9C `STZ abs` (R176). -/
def execStzAbs (a : Word) (s : State) : Result := .next (stz 0x9C#8 (.abs a) s)

/-- 0x9E `STZ abs,X` (R176). -/
def execStzAbsX (a : Word) (s : State) : Result := .next (stz 0x9E#8 (.absX a) s)

end Sys2Proof.Machine
end

