-- ==== Sys2Proof/Machine/ShiftRotate.lean ====
section
/-! DEFINITION. ASL, LSR, ROL and ROR (43_shift_rotate.md), on the accumulator or on memory (R234). -/

namespace Sys2Proof.Machine

/-- R230: the shift left of ASL. -/
def shiftLeft (w : Width) (v : Word) : Word := trunc w (v <<< 1)

/-- R231: the shift right of LSR. -/
def shiftRight (v : Word) : Word := v >>> 1

/-- R232: the rotation left of ROL, the carry entering bit 0. -/
def rotateLeft (w : Width) (c : Bool) (v : Word) : Word := trunc w (v <<< 1 ||| BitVec.ofNat 16 c.toNat)

/-- R233: the rotation right of ROR, the carry entering bit w-1. -/
def rotateRight (w : Width) (c : Bool) (v : Word) : Word := v >>> 1 ||| BitVec.ofNat 16 c.toNat <<< (w.bits - 1)

/-- R234: the flags of a shift: N and Z of the result, C the bit shifted out. -/
def shiftFlags (w : Width) (result : Word) (out : Bool) (p : Flags) : Flags := { p.nz w result with c := out }

/-- R230: ASL. -/
def asl (op : Byte) (m : Mode) (s : State) : State :=
  rmwInstr op m s.wA (shiftLeft s.wA) (fun v => shiftFlags s.wA (shiftLeft s.wA v) (topBit s.wA v) s.p) s

/-- R231: LSR. -/
def lsr (op : Byte) (m : Mode) (s : State) : State :=
  rmwInstr op m s.wA shiftRight (fun v => shiftFlags s.wA (shiftRight v) (v.getLsbD 0) s.p) s

/-- R232: ROL. -/
def rol (op : Byte) (m : Mode) (s : State) : State :=
  rmwInstr op m s.wA (rotateLeft s.wA s.p.c)
    (fun v => shiftFlags s.wA (rotateLeft s.wA s.p.c v) (topBit s.wA v) s.p) s

/-- R233: ROR. -/
def ror (op : Byte) (m : Mode) (s : State) : State :=
  rmwInstr op m s.wA (rotateRight s.wA s.p.c)
    (fun v => shiftFlags s.wA (rotateRight s.wA s.p.c v) (v.getLsbD 0) s.p) s

/-- 0x06 `ASL dp` (R230). -/
def execAslDp (d : Byte) (s : State) : Result := .next (asl 0x06#8 (.dp d) s)

/-- 0x0A `ASL A` (R230). -/
def execAslA (s : State) : Result := .next (asl 0x0A#8 .acc s)

/-- 0x0E `ASL abs` (R230). -/
def execAslAbs (a : Word) (s : State) : Result := .next (asl 0x0E#8 (.abs a) s)

/-- 0x16 `ASL dp,X` (R230). -/
def execAslDpX (d : Byte) (s : State) : Result := .next (asl 0x16#8 (.dpX d) s)

/-- 0x1E `ASL abs,X` (R230). -/
def execAslAbsX (a : Word) (s : State) : Result := .next (asl 0x1E#8 (.absX a) s)

/-- 0x46 `LSR dp` (R231). -/
def execLsrDp (d : Byte) (s : State) : Result := .next (lsr 0x46#8 (.dp d) s)

/-- 0x4A `LSR A` (R231). -/
def execLsrA (s : State) : Result := .next (lsr 0x4A#8 .acc s)

/-- 0x4E `LSR abs` (R231). -/
def execLsrAbs (a : Word) (s : State) : Result := .next (lsr 0x4E#8 (.abs a) s)

/-- 0x56 `LSR dp,X` (R231). -/
def execLsrDpX (d : Byte) (s : State) : Result := .next (lsr 0x56#8 (.dpX d) s)

/-- 0x5E `LSR abs,X` (R231). -/
def execLsrAbsX (a : Word) (s : State) : Result := .next (lsr 0x5E#8 (.absX a) s)

/-- 0x26 `ROL dp` (R232). -/
def execRolDp (d : Byte) (s : State) : Result := .next (rol 0x26#8 (.dp d) s)

/-- 0x2A `ROL A` (R232). -/
def execRolA (s : State) : Result := .next (rol 0x2A#8 .acc s)

/-- 0x2E `ROL abs` (R232). -/
def execRolAbs (a : Word) (s : State) : Result := .next (rol 0x2E#8 (.abs a) s)

/-- 0x36 `ROL dp,X` (R232). -/
def execRolDpX (d : Byte) (s : State) : Result := .next (rol 0x36#8 (.dpX d) s)

/-- 0x3E `ROL abs,X` (R232). -/
def execRolAbsX (a : Word) (s : State) : Result := .next (rol 0x3E#8 (.absX a) s)

/-- 0x66 `ROR dp` (R233). -/
def execRorDp (d : Byte) (s : State) : Result := .next (ror 0x66#8 (.dp d) s)

/-- 0x6A `ROR A` (R233). -/
def execRorA (s : State) : Result := .next (ror 0x6A#8 .acc s)

/-- 0x6E `ROR abs` (R233). -/
def execRorAbs (a : Word) (s : State) : Result := .next (ror 0x6E#8 (.abs a) s)

/-- 0x76 `ROR dp,X` (R233). -/
def execRorDpX (d : Byte) (s : State) : Result := .next (ror 0x76#8 (.dpX d) s)

/-- 0x7E `ROR abs,X` (R233). -/
def execRorAbsX (a : Word) (s : State) : Result := .next (ror 0x7E#8 (.absX a) s)

end Sys2Proof.Machine
end

