-- ==== Sys2Proof/Machine/Stack.lean ====
section
/-! DEFINITION. The push and pull instructions and PEA, PEI, PER (45_stack.md), at the widths of R286. -/

namespace Sys2Proof.Machine

/-- R270 to R272: the push of a register of width `w`, with its width penalty (R472 item 1). -/
def pushReg (op : Byte) (w : Width) (v : Word) (s : State) : State :=
  (s.pushW w v).finish 1 (s.cycles op (baseCycles op + widthPenalty w))

/-- R273: PHP: in emulation mode B becomes 1, then the encoded flags are pushed. -/
def php (op : Byte) (s : State) : State :=
  let t := if s.p.e then { s with p := { s.p with b := true } } else s
  (t.push8 t.p.encode).finish 1 (s.cycles op (baseCycles op))

/-- R274, R276: the push of a bank register. -/
def pushBank (op : Byte) (v : Byte) (s : State) : State := (s.push8 v).finish 1 (s.cycles op (baseCycles op))

/-- R275: PHD, 16 bits in both modes. -/
def phd (op : Byte) (s : State) : State := (s.push16 s.dp).finish 1 (s.cycles op (baseCycles op))

/-- R277: PLA. -/
def pla (op : Byte) (s : State) : State :=
  let r := s.pullW s.wA
  ((r.2.setA s.wA r.1).setNZ s.wA r.1).finish 1 (s.cycles op (baseCycles op + widthPenalty s.wA))

/-- R278: PLX. -/
def plx (op : Byte) (s : State) : State :=
  let r := s.pullW s.wX
  ((r.2.setX s.wX r.1).setNZ s.wX r.1).finish 1 (s.cycles op (baseCycles op + widthPenalty s.wX))

/-- R279: PLY. -/
def ply (op : Byte) (s : State) : State :=
  let r := s.pullW s.wX
  ((r.2.setY s.wX r.1).setNZ s.wX r.1).finish 1 (s.cycles op (baseCycles op + widthPenalty s.wX))

/-- R280: PLP. -/
def plp (op : Byte) (s : State) : State :=
  let r := s.pull8
  (r.2.decodeP r.1).finish 1 (s.cycles op (baseCycles op))

/-- R281: PLB. -/
def plb (op : Byte) (s : State) : State :=
  let r := s.pull8
  (({ r.2 with dbr := r.1 } : State).setNZ .w8 (zext16 r.1)).finish 1 (s.cycles op (baseCycles op))

/-- R282: PLD, 16 bits in both modes. -/
def pld (op : Byte) (s : State) : State :=
  let r := s.pull16
  (({ r.2 with dp := r.1 } : State).setNZ .w16 r.1).finish 1 (s.cycles op (baseCycles op))

/-- R283: PEA. -/
def pea (op : Byte) (v : Word) (s : State) : State := (s.push16 v).finish 3 (s.cycles op (baseCycles op))

/-- R284: PEI. -/
def pei (op : Byte) (d : Byte) (s : State) : State :=
  let r := peiWord d s
  (({ s with bus := r.2 } : State).push16 r.1).finish 2 (s.cycles op (baseCycles op + dpPenalty (.pei d) s.dp))

/-- R285: PER. -/
def per (op : Byte) (r : Word) (s : State) : State :=
  (s.push16 (s.rel16Target r)).finish 3 (s.cycles op (baseCycles op))

/-- 0x48 `PHA` (R270). -/
def execPha (s : State) : Result := .next (pushReg 0x48#8 s.wA s.a s)

/-- 0xDA `PHX` (R271). -/
def execPhx (s : State) : Result := .next (pushReg 0xDA#8 s.wX s.x s)

/-- 0x5A `PHY` (R272). -/
def execPhy (s : State) : Result := .next (pushReg 0x5A#8 s.wX s.y s)

/-- 0x08 `PHP` (R273). -/
def execPhp (s : State) : Result := .next (php 0x08#8 s)

/-- 0x8B `PHB` (R274). -/
def execPhb (s : State) : Result := .next (pushBank 0x8B#8 s.dbr s)

/-- 0x0B `PHD` (R275). -/
def execPhd (s : State) : Result := .next (phd 0x0B#8 s)

/-- 0x4B `PHK` (R276). -/
def execPhk (s : State) : Result := .next (pushBank 0x4B#8 s.pbr s)

/-- 0x68 `PLA` (R277). -/
def execPla (s : State) : Result := .next (pla 0x68#8 s)

/-- 0xFA `PLX` (R278). -/
def execPlx (s : State) : Result := .next (plx 0xFA#8 s)

/-- 0x7A `PLY` (R279). -/
def execPly (s : State) : Result := .next (ply 0x7A#8 s)

/-- 0x28 `PLP` (R280). -/
def execPlp (s : State) : Result := .next (plp 0x28#8 s)

/-- 0xAB `PLB` (R281). -/
def execPlb (s : State) : Result := .next (plb 0xAB#8 s)

/-- 0x2B `PLD` (R282). -/
def execPld (s : State) : Result := .next (pld 0x2B#8 s)

/-- 0xF4 `PEA #imm16` (R283). -/
def execPea (v : Word) (s : State) : Result := .next (pea 0xF4#8 v s)

/-- 0xD4 `PEI (dp)` (R284). -/
def execPei (d : Byte) (s : State) : Result := .next (pei 0xD4#8 d s)

/-- 0x62 `PER rel16` (R285). -/
def execPer (r : Word) (s : State) : Result := .next (per 0x62#8 r s)

end Sys2Proof.Machine
end

