-- ==== Sys2Proof/Machine/System.lean ====
section
/-! DEFINITION. BRK, COP, RTI, WAI, STP, WDM and NOP (48_system.md). -/

namespace Sys2Proof.Machine

/-- R340, R341: a software interrupt: the return address skips the signature byte, which is not read. -/
def softwareInterrupt (op : Byte) (k : Cause) (s : State) : State :=
  let t := s.enter k (s.pc + 2#16)
  { t with cyc := t.cyc + BitVec.ofNat 64 (s.cycles op (baseCycles op + nativePenalty s.p.e)) }

/-- R342: RTI. -/
def rti (op : Byte) (s : State) : State :=
  let t := s.returnFromInterrupt
  { t with cyc := t.cyc + BitVec.ofNat 64 (s.cycles op (baseCycles op + nativePenalty s.p.e)) }

/-- R343, R344: the end of WAI and STP in a run state. -/
def stopIn (op : Byte) (r : RunState) (s : State) : State := impliedInstr op (fun t => { t with run := r }) s

/-- R345: WDM, whose byte is skipped and not read. -/
def wdm (op : Byte) (s : State) : State := s.finish 2 (s.cycles op (baseCycles op))

/-- R346: NOP. -/
def nop (op : Byte) (s : State) : State := s.finish 1 (s.cycles op (baseCycles op))

/-- 0x00 `BRK #sig` (R340). -/
def execBrk (_sig : Byte) (s : State) : Result := .next (softwareInterrupt 0x00#8 .brk s)

/-- 0x02 `COP #sig` (R341). -/
def execCop (_sig : Byte) (s : State) : Result := .next (softwareInterrupt 0x02#8 .cop s)

/-- 0x40 `RTI` (R342). -/
def execRti (s : State) : Result := .next (rti 0x40#8 s)

/-- 0xCB `WAI` (R343). -/
def execWai (s : State) : Result := .next (stopIn 0xCB#8 .waiting s)

/-- 0xDB `STP` (R344). -/
def execStp (s : State) : Result := .next (stopIn 0xDB#8 .stopped s)

/-- 0x42 `WDM #imm8` (R345). -/
def execWdm (_v : Byte) (s : State) : Result := .next (wdm 0x42#8 s)

/-- 0xEA `NOP` (R346). -/
def execNop (s : State) : Result := .next (nop 0xEA#8 s)

end Sys2Proof.Machine
end

