-- ==== Sys2Proof/Machine/Transfer.lean ====
section
/-! DEFINITION. The register transfers and XBA (46_transfer.md), at the widths of R313. -/

namespace Sys2Proof.Machine

/-- R313: a transfer to X at width wX. -/
def transferToX (op : Byte) (v : Word) (s : State) : State :=
  impliedInstr op (fun t => (t.setX t.wX v).setNZ t.wX v) s

/-- R313: a transfer to Y at width wX. -/
def transferToY (op : Byte) (v : Word) (s : State) : State :=
  impliedInstr op (fun t => (t.setY t.wX v).setNZ t.wX v) s

/-- R313: a transfer to A at width wA. -/
def transferToA (op : Byte) (v : Word) (s : State) : State :=
  impliedInstr op (fun t => (t.setA t.wA v).setNZ t.wA v) s

/-- R305, R310: a transfer to S, whose high byte is forced to 0x01 in emulation mode (decision D12). -/
def transferToS (op : Byte) (v : Word) (s : State) : State :=
  impliedInstr op (fun t => { t with sp := if t.p.e then rehome v else v }) s

/-- R308: TCD, 16 bits in every mode. -/
def tcd (op : Byte) (s : State) : State := impliedInstr op (fun t => ({ t with dp := t.a } : State).setNZ .w16 t.a) s

/-- R309, R311: a 16-bit transfer to the whole accumulator. -/
def transferToC (op : Byte) (v : Word) (s : State) : State :=
  impliedInstr op (fun t => ({ t with a := v } : State).setNZ .w16 v) s

/-- R312: the accumulator with its two bytes exchanged. -/
def swapBytes (a : Word) : Word := joinBytes (loByte a) (hiByte a)

/-- R312: XBA; N and Z from the new low byte. -/
def xba (op : Byte) (s : State) : State :=
  impliedInstr op (fun t => ({ t with a := swapBytes t.a } : State).setNZ .w8 (swapBytes t.a)) s

/-- 0xAA `TAX` (R300). -/
def execTax (s : State) : Result := .next (transferToX 0xAA#8 s.a s)

/-- 0xA8 `TAY` (R301). -/
def execTay (s : State) : Result := .next (transferToY 0xA8#8 s.a s)

/-- 0x8A `TXA` (R302). -/
def execTxa (s : State) : Result := .next (transferToA 0x8A#8 s.x s)

/-- 0x98 `TYA` (R303). -/
def execTya (s : State) : Result := .next (transferToA 0x98#8 s.y s)

/-- 0xBA `TSX` (R304). -/
def execTsx (s : State) : Result := .next (transferToX 0xBA#8 s.sp s)

/-- 0x9A `TXS` (R305). -/
def execTxs (s : State) : Result := .next (transferToS 0x9A#8 s.x s)

/-- 0x9B `TXY` (R306). -/
def execTxy (s : State) : Result := .next (transferToY 0x9B#8 s.x s)

/-- 0xBB `TYX` (R307). -/
def execTyx (s : State) : Result := .next (transferToX 0xBB#8 s.y s)

/-- 0x5B `TCD` (R308). -/
def execTcd (s : State) : Result := .next (tcd 0x5B#8 s)

/-- 0x7B `TDC` (R309). -/
def execTdc (s : State) : Result := .next (transferToC 0x7B#8 s.dp s)

/-- 0x1B `TCS` (R310). -/
def execTcs (s : State) : Result := .next (transferToS 0x1B#8 s.a s)

/-- 0x3B `TSC` (R311). -/
def execTsc (s : State) : Result := .next (transferToC 0x3B#8 s.sp s)

/-- 0xEB `XBA` (R312). -/
def execXba (s : State) : Result := .next (xba 0xEB#8 s)

end Sys2Proof.Machine
end

