-- ==== Sys2Proof/Machine/Dispatch.lean ====
section
/-! DEFINITION. `exec`: one arm per constructor of `Instr`, each one direct call of its meaning. -/

namespace Sys2Proof.Machine

/-- R117: the meaning of every instruction, `PBR:PC` being at its opcode byte. -/
def exec (i : Instr) (s : State) : Host.Outcome State Fault Refusal :=
  match i with
  | .brk sig => Sys2Proof.Machine.execBrk sig s
  | .oraDpXInd d => Sys2Proof.Machine.execOraDpXInd d s
  | .cop sig => Sys2Proof.Machine.execCop sig s
  | .oraSr d => Sys2Proof.Machine.execOraSr d s
  | .tsbDp d => Sys2Proof.Machine.execTsbDp d s
  | .oraDp d => Sys2Proof.Machine.execOraDp d s
  | .aslDp d => Sys2Proof.Machine.execAslDp d s
  | .oraDpIndL d => Sys2Proof.Machine.execOraDpIndL d s
  | .oraImm v => Sys2Proof.Machine.execOraImm v s
  | .tsbAbs a => Sys2Proof.Machine.execTsbAbs a s
  | .oraAbs a => Sys2Proof.Machine.execOraAbs a s
  | .aslAbs a => Sys2Proof.Machine.execAslAbs a s
  | .oraAbsL l => Sys2Proof.Machine.execOraAbsL l s
  | .bpl r => Sys2Proof.Machine.execBpl r s
  | .oraDpIndY d => Sys2Proof.Machine.execOraDpIndY d s
  | .oraDpInd d => Sys2Proof.Machine.execOraDpInd d s
  | .oraSrIndY d => Sys2Proof.Machine.execOraSrIndY d s
  | .trbDp d => Sys2Proof.Machine.execTrbDp d s
  | .oraDpX d => Sys2Proof.Machine.execOraDpX d s
  | .aslDpX d => Sys2Proof.Machine.execAslDpX d s
  | .oraDpIndLY d => Sys2Proof.Machine.execOraDpIndLY d s
  | .oraAbsY a => Sys2Proof.Machine.execOraAbsY a s
  | .trbAbs a => Sys2Proof.Machine.execTrbAbs a s
  | .oraAbsX a => Sys2Proof.Machine.execOraAbsX a s
  | .aslAbsX a => Sys2Proof.Machine.execAslAbsX a s
  | .oraAbsLX l => Sys2Proof.Machine.execOraAbsLX l s
  | .jsrAbs a => Sys2Proof.Machine.execJsrAbs a s
  | .andDpXInd d => Sys2Proof.Machine.execAndDpXInd d s
  | .jslAbsL l => Sys2Proof.Machine.execJslAbsL l s
  | .andSr d => Sys2Proof.Machine.execAndSr d s
  | .bitDp d => Sys2Proof.Machine.execBitDp d s
  | .andDp d => Sys2Proof.Machine.execAndDp d s
  | .rolDp d => Sys2Proof.Machine.execRolDp d s
  | .andDpIndL d => Sys2Proof.Machine.execAndDpIndL d s
  | .andImm v => Sys2Proof.Machine.execAndImm v s
  | .bitAbs a => Sys2Proof.Machine.execBitAbs a s
  | .andAbs a => Sys2Proof.Machine.execAndAbs a s
  | .rolAbs a => Sys2Proof.Machine.execRolAbs a s
  | .andAbsL l => Sys2Proof.Machine.execAndAbsL l s
  | .bmi r => Sys2Proof.Machine.execBmi r s
  | .andDpIndY d => Sys2Proof.Machine.execAndDpIndY d s
  | .andDpInd d => Sys2Proof.Machine.execAndDpInd d s
  | .andSrIndY d => Sys2Proof.Machine.execAndSrIndY d s
  | .bitDpX d => Sys2Proof.Machine.execBitDpX d s
  | .andDpX d => Sys2Proof.Machine.execAndDpX d s
  | .rolDpX d => Sys2Proof.Machine.execRolDpX d s
  | .andDpIndLY d => Sys2Proof.Machine.execAndDpIndLY d s
  | .andAbsY a => Sys2Proof.Machine.execAndAbsY a s
  | .bitAbsX a => Sys2Proof.Machine.execBitAbsX a s
  | .andAbsX a => Sys2Proof.Machine.execAndAbsX a s
  | .rolAbsX a => Sys2Proof.Machine.execRolAbsX a s
  | .andAbsLX l => Sys2Proof.Machine.execAndAbsLX l s
  | .eorDpXInd d => Sys2Proof.Machine.execEorDpXInd d s
  | .wdm v => Sys2Proof.Machine.execWdm v s
  | .eorSr d => Sys2Proof.Machine.execEorSr d s
  | .mvp dst src => Sys2Proof.Machine.execMvp dst src s
  | .eorDp d => Sys2Proof.Machine.execEorDp d s
  | .lsrDp d => Sys2Proof.Machine.execLsrDp d s
  | .eorDpIndL d => Sys2Proof.Machine.execEorDpIndL d s
  | .eorImm v => Sys2Proof.Machine.execEorImm v s
  | .jmpAbs a => Sys2Proof.Machine.execJmpAbs a s
  | .eorAbs a => Sys2Proof.Machine.execEorAbs a s
  | .lsrAbs a => Sys2Proof.Machine.execLsrAbs a s
  | .eorAbsL l => Sys2Proof.Machine.execEorAbsL l s
  | .bvc r => Sys2Proof.Machine.execBvc r s
  | .eorDpIndY d => Sys2Proof.Machine.execEorDpIndY d s
  | .eorDpInd d => Sys2Proof.Machine.execEorDpInd d s
  | .eorSrIndY d => Sys2Proof.Machine.execEorSrIndY d s
  | .mvn dst src => Sys2Proof.Machine.execMvn dst src s
  | .eorDpX d => Sys2Proof.Machine.execEorDpX d s
  | .lsrDpX d => Sys2Proof.Machine.execLsrDpX d s
  | .eorDpIndLY d => Sys2Proof.Machine.execEorDpIndLY d s
  | .eorAbsY a => Sys2Proof.Machine.execEorAbsY a s
  | .jmlAbsL l => Sys2Proof.Machine.execJmlAbsL l s
  | .eorAbsX a => Sys2Proof.Machine.execEorAbsX a s
  | .lsrAbsX a => Sys2Proof.Machine.execLsrAbsX a s
  | .eorAbsLX l => Sys2Proof.Machine.execEorAbsLX l s
  | .adcDpXInd d => Sys2Proof.Machine.execAdcDpXInd d s
  | .per r => Sys2Proof.Machine.execPer r s
  | .adcSr d => Sys2Proof.Machine.execAdcSr d s
  | .stzDp d => Sys2Proof.Machine.execStzDp d s
  | .adcDp d => Sys2Proof.Machine.execAdcDp d s
  | .rorDp d => Sys2Proof.Machine.execRorDp d s
  | .adcDpIndL d => Sys2Proof.Machine.execAdcDpIndL d s
  | .adcImm v => Sys2Proof.Machine.execAdcImm v s
  | .jmpAbsInd a => Sys2Proof.Machine.execJmpAbsInd a s
  | .adcAbs a => Sys2Proof.Machine.execAdcAbs a s
  | .rorAbs a => Sys2Proof.Machine.execRorAbs a s
  | .adcAbsL l => Sys2Proof.Machine.execAdcAbsL l s
  | .bvs r => Sys2Proof.Machine.execBvs r s
  | .adcDpIndY d => Sys2Proof.Machine.execAdcDpIndY d s
  | .adcDpInd d => Sys2Proof.Machine.execAdcDpInd d s
  | .adcSrIndY d => Sys2Proof.Machine.execAdcSrIndY d s
  | .stzDpX d => Sys2Proof.Machine.execStzDpX d s
  | .adcDpX d => Sys2Proof.Machine.execAdcDpX d s
  | .rorDpX d => Sys2Proof.Machine.execRorDpX d s
  | .adcDpIndLY d => Sys2Proof.Machine.execAdcDpIndLY d s
  | .adcAbsY a => Sys2Proof.Machine.execAdcAbsY a s
  | .jmpAbsXInd a => Sys2Proof.Machine.execJmpAbsXInd a s
  | .adcAbsX a => Sys2Proof.Machine.execAdcAbsX a s
  | .rorAbsX a => Sys2Proof.Machine.execRorAbsX a s
  | .adcAbsLX l => Sys2Proof.Machine.execAdcAbsLX l s
  | .bra r => Sys2Proof.Machine.execBra r s
  | .staDpXInd d => Sys2Proof.Machine.execStaDpXInd d s
  | .brl r => Sys2Proof.Machine.execBrl r s
  | .staSr d => Sys2Proof.Machine.execStaSr d s
  | .styDp d => Sys2Proof.Machine.execStyDp d s
  | .staDp d => Sys2Proof.Machine.execStaDp d s
  | .stxDp d => Sys2Proof.Machine.execStxDp d s
  | .staDpIndL d => Sys2Proof.Machine.execStaDpIndL d s
  | .bitImm v => Sys2Proof.Machine.execBitImm v s
  | .styAbs a => Sys2Proof.Machine.execStyAbs a s
  | .staAbs a => Sys2Proof.Machine.execStaAbs a s
  | .stxAbs a => Sys2Proof.Machine.execStxAbs a s
  | .staAbsL l => Sys2Proof.Machine.execStaAbsL l s
  | .bcc r => Sys2Proof.Machine.execBcc r s
  | .staDpIndY d => Sys2Proof.Machine.execStaDpIndY d s
  | .staDpInd d => Sys2Proof.Machine.execStaDpInd d s
  | .staSrIndY d => Sys2Proof.Machine.execStaSrIndY d s
  | .styDpX d => Sys2Proof.Machine.execStyDpX d s
  | .staDpX d => Sys2Proof.Machine.execStaDpX d s
  | .stxDpY d => Sys2Proof.Machine.execStxDpY d s
  | .staDpIndLY d => Sys2Proof.Machine.execStaDpIndLY d s
  | .staAbsY a => Sys2Proof.Machine.execStaAbsY a s
  | .stzAbs a => Sys2Proof.Machine.execStzAbs a s
  | .staAbsX a => Sys2Proof.Machine.execStaAbsX a s
  | .stzAbsX a => Sys2Proof.Machine.execStzAbsX a s
  | .staAbsLX l => Sys2Proof.Machine.execStaAbsLX l s
  | .ldyImm v => Sys2Proof.Machine.execLdyImm v s
  | .ldaDpXInd d => Sys2Proof.Machine.execLdaDpXInd d s
  | .ldxImm v => Sys2Proof.Machine.execLdxImm v s
  | .ldaSr d => Sys2Proof.Machine.execLdaSr d s
  | .ldyDp d => Sys2Proof.Machine.execLdyDp d s
  | .ldaDp d => Sys2Proof.Machine.execLdaDp d s
  | .ldxDp d => Sys2Proof.Machine.execLdxDp d s
  | .ldaDpIndL d => Sys2Proof.Machine.execLdaDpIndL d s
  | .ldaImm v => Sys2Proof.Machine.execLdaImm v s
  | .ldyAbs a => Sys2Proof.Machine.execLdyAbs a s
  | .ldaAbs a => Sys2Proof.Machine.execLdaAbs a s
  | .ldxAbs a => Sys2Proof.Machine.execLdxAbs a s
  | .ldaAbsL l => Sys2Proof.Machine.execLdaAbsL l s
  | .bcs r => Sys2Proof.Machine.execBcs r s
  | .ldaDpIndY d => Sys2Proof.Machine.execLdaDpIndY d s
  | .ldaDpInd d => Sys2Proof.Machine.execLdaDpInd d s
  | .ldaSrIndY d => Sys2Proof.Machine.execLdaSrIndY d s
  | .ldyDpX d => Sys2Proof.Machine.execLdyDpX d s
  | .ldaDpX d => Sys2Proof.Machine.execLdaDpX d s
  | .ldxDpY d => Sys2Proof.Machine.execLdxDpY d s
  | .ldaDpIndLY d => Sys2Proof.Machine.execLdaDpIndLY d s
  | .ldaAbsY a => Sys2Proof.Machine.execLdaAbsY a s
  | .ldyAbsX a => Sys2Proof.Machine.execLdyAbsX a s
  | .ldaAbsX a => Sys2Proof.Machine.execLdaAbsX a s
  | .ldxAbsY a => Sys2Proof.Machine.execLdxAbsY a s
  | .ldaAbsLX l => Sys2Proof.Machine.execLdaAbsLX l s
  | .cpyImm v => Sys2Proof.Machine.execCpyImm v s
  | .cmpDpXInd d => Sys2Proof.Machine.execCmpDpXInd d s
  | .rep v => Sys2Proof.Machine.execRep v s
  | .cmpSr d => Sys2Proof.Machine.execCmpSr d s
  | .cpyDp d => Sys2Proof.Machine.execCpyDp d s
  | .cmpDp d => Sys2Proof.Machine.execCmpDp d s
  | .decDp d => Sys2Proof.Machine.execDecDp d s
  | .cmpDpIndL d => Sys2Proof.Machine.execCmpDpIndL d s
  | .cmpImm v => Sys2Proof.Machine.execCmpImm v s
  | .cpyAbs a => Sys2Proof.Machine.execCpyAbs a s
  | .cmpAbs a => Sys2Proof.Machine.execCmpAbs a s
  | .decAbs a => Sys2Proof.Machine.execDecAbs a s
  | .cmpAbsL l => Sys2Proof.Machine.execCmpAbsL l s
  | .bne r => Sys2Proof.Machine.execBne r s
  | .cmpDpIndY d => Sys2Proof.Machine.execCmpDpIndY d s
  | .cmpDpInd d => Sys2Proof.Machine.execCmpDpInd d s
  | .cmpSrIndY d => Sys2Proof.Machine.execCmpSrIndY d s
  | .pei d => Sys2Proof.Machine.execPei d s
  | .cmpDpX d => Sys2Proof.Machine.execCmpDpX d s
  | .decDpX d => Sys2Proof.Machine.execDecDpX d s
  | .cmpDpIndLY d => Sys2Proof.Machine.execCmpDpIndLY d s
  | .cmpAbsY a => Sys2Proof.Machine.execCmpAbsY a s
  | .jmlAbsIndL a => Sys2Proof.Machine.execJmlAbsIndL a s
  | .cmpAbsX a => Sys2Proof.Machine.execCmpAbsX a s
  | .decAbsX a => Sys2Proof.Machine.execDecAbsX a s
  | .cmpAbsLX l => Sys2Proof.Machine.execCmpAbsLX l s
  | .cpxImm v => Sys2Proof.Machine.execCpxImm v s
  | .sbcDpXInd d => Sys2Proof.Machine.execSbcDpXInd d s
  | .sep v => Sys2Proof.Machine.execSep v s
  | .sbcSr d => Sys2Proof.Machine.execSbcSr d s
  | .cpxDp d => Sys2Proof.Machine.execCpxDp d s
  | .sbcDp d => Sys2Proof.Machine.execSbcDp d s
  | .incDp d => Sys2Proof.Machine.execIncDp d s
  | .sbcDpIndL d => Sys2Proof.Machine.execSbcDpIndL d s
  | .sbcImm v => Sys2Proof.Machine.execSbcImm v s
  | .cpxAbs a => Sys2Proof.Machine.execCpxAbs a s
  | .sbcAbs a => Sys2Proof.Machine.execSbcAbs a s
  | .incAbs a => Sys2Proof.Machine.execIncAbs a s
  | .sbcAbsL l => Sys2Proof.Machine.execSbcAbsL l s
  | .beq r => Sys2Proof.Machine.execBeq r s
  | .sbcDpIndY d => Sys2Proof.Machine.execSbcDpIndY d s
  | .sbcDpInd d => Sys2Proof.Machine.execSbcDpInd d s
  | .sbcSrIndY d => Sys2Proof.Machine.execSbcSrIndY d s
  | .pea v => Sys2Proof.Machine.execPea v s
  | .sbcDpX d => Sys2Proof.Machine.execSbcDpX d s
  | .incDpX d => Sys2Proof.Machine.execIncDpX d s
  | .sbcDpIndLY d => Sys2Proof.Machine.execSbcDpIndLY d s
  | .sbcAbsY a => Sys2Proof.Machine.execSbcAbsY a s
  | .jsrAbsXInd a => Sys2Proof.Machine.execJsrAbsXInd a s
  | .sbcAbsX a => Sys2Proof.Machine.execSbcAbsX a s
  | .incAbsX a => Sys2Proof.Machine.execIncAbsX a s
  | .sbcAbsLX l => Sys2Proof.Machine.execSbcAbsLX l s
  | .php => Sys2Proof.Machine.execPhp s
  | .aslA => Sys2Proof.Machine.execAslA s
  | .phd => Sys2Proof.Machine.execPhd s
  | .clc => Sys2Proof.Machine.execClc s
  | .incA => Sys2Proof.Machine.execIncA s
  | .tcs => Sys2Proof.Machine.execTcs s
  | .plp => Sys2Proof.Machine.execPlp s
  | .rolA => Sys2Proof.Machine.execRolA s
  | .pld => Sys2Proof.Machine.execPld s
  | .sec => Sys2Proof.Machine.execSec s
  | .decA => Sys2Proof.Machine.execDecA s
  | .tsc => Sys2Proof.Machine.execTsc s
  | .rti => Sys2Proof.Machine.execRti s
  | .pha => Sys2Proof.Machine.execPha s
  | .lsrA => Sys2Proof.Machine.execLsrA s
  | .phk => Sys2Proof.Machine.execPhk s
  | .cli => Sys2Proof.Machine.execCli s
  | .phy => Sys2Proof.Machine.execPhy s
  | .tcd => Sys2Proof.Machine.execTcd s
  | .rts => Sys2Proof.Machine.execRts s
  | .pla => Sys2Proof.Machine.execPla s
  | .rorA => Sys2Proof.Machine.execRorA s
  | .rtl => Sys2Proof.Machine.execRtl s
  | .sei => Sys2Proof.Machine.execSei s
  | .ply => Sys2Proof.Machine.execPly s
  | .tdc => Sys2Proof.Machine.execTdc s
  | .dey => Sys2Proof.Machine.execDey s
  | .txa => Sys2Proof.Machine.execTxa s
  | .phb => Sys2Proof.Machine.execPhb s
  | .tya => Sys2Proof.Machine.execTya s
  | .txs => Sys2Proof.Machine.execTxs s
  | .txy => Sys2Proof.Machine.execTxy s
  | .tay => Sys2Proof.Machine.execTay s
  | .tax => Sys2Proof.Machine.execTax s
  | .plb => Sys2Proof.Machine.execPlb s
  | .clv => Sys2Proof.Machine.execClv s
  | .tsx => Sys2Proof.Machine.execTsx s
  | .tyx => Sys2Proof.Machine.execTyx s
  | .iny => Sys2Proof.Machine.execIny s
  | .dex => Sys2Proof.Machine.execDex s
  | .wai => Sys2Proof.Machine.execWai s
  | .cld => Sys2Proof.Machine.execCld s
  | .phx => Sys2Proof.Machine.execPhx s
  | .stp => Sys2Proof.Machine.execStp s
  | .inx => Sys2Proof.Machine.execInx s
  | .nop => Sys2Proof.Machine.execNop s
  | .xba => Sys2Proof.Machine.execXba s
  | .sed => Sys2Proof.Machine.execSed s
  | .plx => Sys2Proof.Machine.execPlx s
  | .xce => Sys2Proof.Machine.execXce s

end Sys2Proof.Machine
end

