-- ==== Sys2Proof/Machine/Step.lean ====
section
/-! DEFINITION. One call of `step()` (R406), and the placing of a table word where the next step fetches. -/

namespace Sys2Proof.Machine

/-- R406: fetch the instruction at `PBR:PC` and execute it; an opcode byte in `UNIMPLEMENTED` is the fault of R121,
raised before any operand byte is read. -/
def runInstr (s : State) : Host.Outcome State Fault Refusal :=
  if s.plat.unimplemented.contains s.fetchOpcode.1 then .fault (.defect s.fetchOpcode.1)
  else exec s.fetch.instr { s with bus := s.fetch.bus }

/-- R406: the step: the boundary's events, else one instruction. -/
def step (s : State) : Host.Outcome State Fault Refusal :=
  match s.boundary with
  | .done t => .next t
  | .execute t => runInstr t

/-- `s` with the bytes of a table word (the bits above `nbits` zero, four bytes in all) at `PBR:PC`, and with nothing
that would keep the next step from fetching there: running, RES not asserted, RDY asserted, no interrupt pending. On
`State.reset` only memory changes (log 20). -/
def State.withFetchWord (s : State) (nbits w : Nat) : State :=
  placeForFetch (tableBytes nbits w) s

end Sys2Proof.Machine
end

