-- ==== Sys2Proof/Machine/HostOps.lean ====
section
/-! DEFINITION. What the outside world can do to the machine, between steps only (R60, R61, R401): set pins, jump, poke
registers and flags, read the getters, and use the bus as any client. -/

namespace Sys2Proof.Machine

/-- R52: the pins. -/
inductive Pin where
  | res
  | rdy
  | irq
  | nmi
  | abort
deriving DecidableEq, Repr

/-- R401: an edge from deasserted to asserted sets a latch; deasserting a pin clears none. -/
def latchAfter (latch before now : Bool) : Bool := latch || (!before && now)

/-- R60, R401: the host sets a pin. RES, NMI and ABORT are edge-latched; IRQ and RDY have no latch. -/
def setPin (p : Pin) (v : Bool) (s : State) : State :=
  match p with
  | .res => { s with pins := { s.pins with res := v }, resetPending := latchAfter s.resetPending s.pins.res v }
  | .rdy => { s with pins := { s.pins with rdy := v } }
  | .irq => { s with pins := { s.pins with irq := v } }
  | .nmi => { s with pins := { s.pins with nmi := v }, nmiPending := latchAfter s.nmiPending s.pins.nmi v }
  | .abort => { s with pins := { s.pins with abort := v }, abortPending := latchAfter s.abortPending s.pins.abort v }

/-- R60: `jump(a)`: PBR and PC, and nothing else. -/
def hostJump (a : Addr) (s : State) : State := { s with pbr := a.bank, pc := a.offset }

/-- R60: the moves of the host between steps. -/
inductive HostAction where
  | setPin (p : Pin) (v : Bool)
  | jump (a : Addr)
  | pokeA (v : Word)
  | pokeX (v : Word)
  | pokeY (v : Word)
  | pokeS (v : Word)
  | pokeD (v : Word)
  | pokeDBR (v : Byte)
  | pokePBR (v : Byte)
  | pokePC (v : Word)
  | pokeCYC (v : BitVec 64)
  | pokeFlags (p : Flags)
  | busRead (a : Addr)
  | busWrite (a : Addr) (v : Byte)
deriving DecidableEq, Repr

/-- R60: what a move of the host does. A poke writes its register or the flags and nothing else. DESIGN CHOICE (log
22): that holds for `pokeFlags` with X set to 1 in native mode too: the spec does not say whether a poke clears the
index high bytes as R38 and R50 have the instructions do, and the model keeps them. -/
def hostAct (h : HostAction) (s : State) : State :=
  match h with
  | .setPin p v => setPin p v s
  | .jump a => hostJump a s
  | .pokeA v => { s with a := v }
  | .pokeX v => { s with x := v }
  | .pokeY v => { s with y := v }
  | .pokeS v => { s with sp := v }
  | .pokeD v => { s with dp := v }
  | .pokeDBR v => { s with dbr := v }
  | .pokePBR v => { s with pbr := v }
  | .pokePC v => { s with pc := v }
  | .pokeCYC v => { s with cyc := v }
  | .pokeFlags p => { s with p := p }
  | .busRead a => { s with bus := (busRead8 s.plat a s.bus).2 }
  | .busWrite a v => { s with bus := busWrite8 s.plat a v s.bus }

/-- R60: the byte that the host reads as a bus client. -/
def hostBusByte (a : Addr) (s : State) : Byte := (busRead8 s.plat a s.bus).1

/-- R61: what the getters return: A, X and Y in full, the program address, the cycle counter. -/
structure Getters where
  a   : Word
  x   : Word
  y   : Word
  pa  : Addr
  cyc : BitVec 64
deriving DecidableEq, Repr

/-- R61: the getters. -/
def hostGetters (s : State) : Getters := { a := s.a, x := s.x, y := s.y, pa := s.programAddress, cyc := s.cyc }

end Sys2Proof.Machine
end

