-- ==== Sys2Proof/Machine/Run.lean ====
section
/-! DEFINITION. A launch and the end of its run (R462): Final, Fault, Stuck or Hang. -/

namespace Sys2Proof.Machine

/-- R451: a state that power-on can leave: reset held with a reset pending and CYC 0; every other field holds any
value. -/
def State.isPowerOn (s : State) : Bool :=
  decide (s.run = .resetHeld) && s.resetPending && s.cyc == 0#64

/-- R462: a launch: the configuration, memory, core state and pins, all in one state, and the launcher's optional stop
address. -/
structure Launch where
  start : State
  halt  : Option Addr
deriving DecidableEq, Repr

/-- R462: the core state of a launch is a power-on state, or one that the host set with `run = Running`. -/
def Launch.legal (l : Launch) : Bool := l.start.isPowerOn || decide (l.start.run = .running)

/-- R462: a run ends as Final in this state: stopped, or running at the stop address before the fetch. -/
def State.isFinal (halt : Option Addr) (s : State) : Bool :=
  decide (s.run = .stopped) || (decide (s.run = .running) && halt == some s.programAddress)

/-- R462: no step can make progress under the pins as they are held: reset held, RDY low, or waiting with no wake
source. -/
def State.isStuck (s : State) : Bool :=
  (s.pins.res && decide (s.run = .resetHeld)) ||
    (!s.pins.res && !s.resetPending && (decide (s.run = .running) || decide (s.run = .waiting)) && !s.pins.rdy) ||
    (!s.pins.res && !s.resetPending && decide (s.run = .waiting) && !s.wakes)

/-- R462: how a run ends, with the state at that point. -/
inductive RunEnd where
  /-- Stopped, or at the stop address. -/
  | final (s : State)
  /-- A step raised a fault in this state; it is never final. -/
  | fault (f : Fault) (s : State)
  /-- No step makes progress; not final. -/
  | stuck (s : State)
  /-- A step refused in this state. No step does: `step` only fetches instructions that have a meaning. -/
  | refused (r : Refusal) (s : State)
deriving DecidableEq, Repr

/-- A run after some steps: still going, in this state, or ended. -/
inductive Progress where
  | going (s : State)
  | ended (e : RunEnd)
deriving DecidableEq, Repr

/-- R462: the end that a state is by itself, before any step from it. -/
def State.endHere (halt : Option Addr) (s : State) : Option RunEnd :=
  if s.isFinal halt then some (.final s) else if s.isStuck then some (.stuck s) else none

/-- R462: how a run goes on after the step from `s`: `k` says what the run from the next state is. -/
def afterStep (s : State) (k : State → Progress) : Result → Progress
  | .next t => k t
  | .fault f => .ended (.fault f s)
  | .refused r => .ended (.refused r s)

/-- R462: the run from `s` after at most `n` steps; no step is taken after its end. -/
def runFrom (halt : Option Addr) : Nat → State → Progress
  | 0, s =>
    match s.endHere halt with
    | some e => .ended e
    | none => .going s
  | n + 1, s =>
    match s.endHere halt with
    | some e => .ended e
    | none => afterStep s (runFrom halt n) (step s)

/-- R462: the run of a launch after at most `n` steps. -/
def Launch.after (l : Launch) (n : Nat) : Progress := runFrom l.halt n l.start

/-- R462: the run of a launch ends, and so. -/
def Launch.Ends (l : Launch) (e : RunEnd) : Prop := ∃ n, l.after n = .ended e

/-- R462: Hang: no step of the run is its end. -/
def Launch.Hangs (l : Launch) : Prop := ∀ n, ∃ s, l.after n = .going s

end Sys2Proof.Machine
end

