-- ==== Sys2Proof/Safety.lean ====
section
/-! DEFINITION. What claims speak of: the invariants of the state (R47, R50 and the canonical memory), safe
runs (R462), the views of the bus without a device, and where an instruction stores. -/

namespace Sys2Proof.Machine

/-! ## Invariants -/

/-- R47: in emulation mode M and X are 1, the index high bytes are 0 and, with EMU_STACK_PAGE1, S is in page 1. -/
abbrev State.EmulationInv (s : State) : Prop :=
  s.p.e = true → s.p.m = true ∧ s.p.x = true ∧ hiByte s.x = 0x00#8 ∧ hiByte s.y = 0x00#8 ∧
    (s.plat.emuStackPage1 = true → hiByte s.sp = 0x01#8)

/-- R50: while the index registers are 8 bits wide, their high bytes are 0. -/
abbrev State.IndexInv (s : State) : Prop := s.x8 = true → hiByte s.x = 0x00#8 ∧ hiByte s.y = 0x00#8

/-- R47 and R50 together. -/
abbrev State.ModeInv (s : State) : Prop := s.EmulationInv ∧ s.IndexInv

/-- Memory is in its canonical form. -/
abbrev State.MemInv (s : State) : Prop := Memory.wf s.bus.mem = true

/-! ## Safe runs -/

/-- R462: the run of a launch never ends in a fault or a refusal. -/
def Launch.Safe (l : Launch) : Prop :=
  ∀ n, match l.after n with
    | .going _ => True
    | .ended (.final _) => True
    | .ended (.fault _ _) => False
    | .ended (.stuck _) => True
    | .ended (.refused _ _) => False

/-! ## Views of the bus -/

/-- The address is backed by a flat region. -/
abbrev InRegion (P : Platform) (a : Addr) : Prop := busTarget P a = .region

/-- The access goes to a device. -/
def Target.isDevice : Target → Bool
  | .region => false
  | .device _ _ => true
  | .openBus => false

/-- No device answers at the address: it is in a region or open bus. -/
abbrev NoDevice (P : Platform) (a : Addr) : Prop := (busTarget P a).isDevice = false

/-- What a read gives where no device answers: the region's byte, or the 0x00 of open bus. -/
def State.byteAt (s : State) (a : Addr) : Byte :=
  match busTarget s.plat a with
  | .region => Memory.read s.bus.mem a.asInteger
  | .device _ _ => 0x00#8
  | .openBus => 0x00#8

/-- The word at `a` and the byte after it (R84), where no device answers. -/
def State.wordAt (s : State) (a : Addr) : Word := joinBytes (s.byteAt (nextAddr s.plat a 1)) (s.byteAt a)

/-- The 24-bit pointer at `a` and the two bytes after it (R87), where no device answers. -/
def State.longAt (s : State) (a : Addr) : Addr := ⟨s.byteAt (nextAddr s.plat a 2), s.wordAt a⟩

/-- The four bytes at `PBR:PC` and after it, wrapping in the bank (R86), where no device answers. -/
def State.codeBytes (s : State) : List Byte :=
  [s.byteAt s.programAddress, s.byteAt (s.fetchAddr 1), s.byteAt (s.fetchAddr 2), s.byteAt (s.fetchAddr 3)]

/-- The next step fetches an instruction: no reset, not stopped, RDY, running, and no interrupt is taken (R406). -/
abbrev State.Ready (s : State) : Prop :=
  s.pins.res = false ∧ s.resetPending = false ∧ s.run = .running ∧ s.pins.rdy = true ∧ s.abortPending = false ∧
    s.nmiPending = false ∧ (s.pins.irq = false ∨ s.p.i = true)

/-! ## Where an instruction stores -/

/-- The two addresses, or the one, that an access of width `w` at `a` touches (R85). -/
def accessAddrs (P : Platform) (w : Width) (a : Addr) : List Addr :=
  match w with
  | .w8 => [a]
  | .w16 => [a, nextAddr P a 1]

/-- S after `k` pushed bytes (R90). -/
def State.spAfter (s : State) : Nat → Word
  | 0 => s.sp
  | k + 1 => State.decS { s with sp := s.spAfter k }

/-- The addresses that `k` pushed bytes are written to, first pushed first (R90). -/
def State.pushAddrs (s : State) (k : Nat) : List Addr := (List.range k).map fun j => ⟨0x00#8, s.spAfter j⟩

/-- S after `k` pulled bytes (R91). -/
def State.spPulled (s : State) : Nat → Word
  | 0 => s.sp
  | k + 1 => State.incS { s with sp := s.spPulled k }

/-! ## The forms of an instruction -/

/-- One entry of a rule's encoding list: the opcode byte, the instruction, and its addressing mode. -/
structure Form where
  op    : Byte
  instr : Instr
  mode  : Mode
deriving DecidableEq, Repr

/-- One entry of the branches' rules: the opcode byte, the instruction, and the condition under which it is taken. -/
structure BranchForm where
  op    : Byte
  instr : Instr
  taken : Bool
deriving DecidableEq, Repr

/-! ## Decimal values -/

/-- The number that two decimal digits stand for. -/
def bcdValue8 (a : Byte) : Nat := 10 * (a.toNat / 16) + a.toNat % 16

/-- The number that four decimal digits stand for. -/
def bcdValue16 (a : Word) : Nat := 100 * bcdValue8 (hiByte a) + bcdValue8 (loByte a)

end Sys2Proof.Machine
end

