-- ==== Sys2Proof/Certificates/Slice0/Obligations.lean ====
section
/-! DEFINITION. The statements for the provers. In a statement about an instruction the whole next state is given as
one record, so that it is the frame too: every field not named keeps its value. Where the cycle counter is written
`cyc := c` its value is that of `CyclesFollowTheTable`. -/

section

open Sys2Proof Sys2Proof.Machine

/-- R111, R112, R117: instructions written out byte by byte from the spec's encodings, at least one of every family,
decode to what they stand for; the same bytes decode by the widths in force (R114); too few bytes are refused by name.
-/
def Obligations.SpecWordsDecode : Prop :=
  decode true true [0xA9#8, 0x42#8, 0x00#8] = .ok (.ldaImm 0x0042#16, [0x00#8]) ∧
  decode false true [0xA9#8, 0x42#8, 0x00#8] = .ok (.ldaImm 0x0042#16, []) ∧
  decode false true [0xA2#8, 0x34#8, 0x12#8] = .ok (.ldxImm 0x0034#16, [0x12#8]) ∧
  decode true false [0xA2#8, 0x34#8, 0x12#8] = .ok (.ldxImm 0x1234#16, []) ∧
  decode true true [0x8D#8, 0x00#8, 0x20#8] = .ok (.staAbs 0x2000#16, []) ∧
  decode true true [0xE9#8, 0xF0#8] = .ok (.sbcImm 0x00F0#16, []) ∧
  decode true true [0x0A#8] = .ok (.aslA, []) ∧
  decode true true [0xD0#8, 0x80#8] = .ok (.bne 0x80#8, []) ∧
  decode true true [0x22#8, 0x00#8, 0x00#8, 0x03#8] = .ok (.jslAbsL ⟨0x03#8, 0x0000#16⟩, []) ∧
  decode true true [0x20#8, 0x00#8, 0x20#8] = .ok (.jsrAbs 0x2000#16, []) ∧
  decode true true [0xF4#8, 0x34#8, 0x12#8] = .ok (.pea 0x1234#16, []) ∧
  decode true true [0xAA#8] = .ok (.tax, []) ∧
  decode true true [0xC2#8, 0x30#8] = .ok (.rep 0x30#8, []) ∧
  decode true true [0x00#8, 0xEA#8] = .ok (.brk 0xEA#8, []) ∧
  decode true true [0x54#8, 0x7E#8, 0x01#8] = .ok (.mvn 0x7E#8 0x01#8, []) ∧
  decode true true [] = .error .noOpcode ∧
  decode true true [0xAD#8, 0x00#8] = .error (.truncated 0xAD#8)

/-- R110 to R114: at any widths, decoding the bytes of a well-formed instruction gives it back and leaves the bytes
after it. -/
def Obligations.EncodeThenDecodeGivesBack : Prop :=
  ∀ (m8 x8 : Bool) (i : Instr) (rest : List Byte), WellFormed m8 x8 i = true →
    decode m8 x8 (encode m8 x8 i ++ rest) = .ok (i, rest)

/-- R110 to R114: what decodes is well-formed, and its encoding is the bytes that were decoded. -/
def Obligations.DecodeThenEncodeGivesBytes : Prop :=
  ∀ (m8 x8 : Bool) (bytes rest : List Byte) (i : Instr), decode m8 x8 bytes = .ok (i, rest) →
    WellFormed m8 x8 i = true ∧ encode m8 x8 i ++ rest = bytes

/-- R119: each of the 256 opcode bytes decodes to an instruction with that opcode, and executing it always ends in a
next state: no instruction stops. -/
def Obligations.EveryOpcodeIsAnInstruction : Prop :=
  ∀ (m8 x8 : Bool) (b0 b1 b2 b3 : Byte), ∃ i rest, decode m8 x8 [b0, b1, b2, b3] = .ok (i, rest) ∧ i.opcode = b0 ∧
    ∀ s : State, ∃ t, exec i s = .next t

/-- R112, R113: the length of an instruction by its opcode, row = high nibble, column = low nibble (the lengths of
opcode_table.json, the immediates of variable width at 8 bits); an immediate of the accumulator is one byte longer
when not m8, one of an index register when not x8. -/
def Obligations.EncodingLengths : Prop :=
  ∀ (m8 x8 : Bool) (i : Instr),
    let op := i.opcode.toNat
    let short : List (List Nat) :=
      [[2, 2, 2, 2, 2, 2, 2, 2, 1, 2, 1, 1, 3, 3, 3, 4],
       [2, 2, 2, 2, 2, 2, 2, 2, 1, 3, 1, 1, 3, 3, 3, 4],
       [3, 2, 4, 2, 2, 2, 2, 2, 1, 2, 1, 1, 3, 3, 3, 4],
       [2, 2, 2, 2, 2, 2, 2, 2, 1, 3, 1, 1, 3, 3, 3, 4],
       [1, 2, 2, 2, 3, 2, 2, 2, 1, 2, 1, 1, 3, 3, 3, 4],
       [2, 2, 2, 2, 3, 2, 2, 2, 1, 3, 1, 1, 4, 3, 3, 4],
       [1, 2, 3, 2, 2, 2, 2, 2, 1, 2, 1, 1, 3, 3, 3, 4],
       [2, 2, 2, 2, 2, 2, 2, 2, 1, 3, 1, 1, 3, 3, 3, 4],
       [2, 2, 3, 2, 2, 2, 2, 2, 1, 2, 1, 1, 3, 3, 3, 4],
       [2, 2, 2, 2, 2, 2, 2, 2, 1, 3, 1, 1, 3, 3, 3, 4],
       [2, 2, 2, 2, 2, 2, 2, 2, 1, 2, 1, 1, 3, 3, 3, 4],
       [2, 2, 2, 2, 2, 2, 2, 2, 1, 3, 1, 1, 3, 3, 3, 4],
       [2, 2, 2, 2, 2, 2, 2, 2, 1, 2, 1, 1, 3, 3, 3, 4],
       [2, 2, 2, 2, 2, 2, 2, 2, 1, 3, 1, 1, 3, 3, 3, 4],
       [2, 2, 2, 2, 2, 2, 2, 2, 1, 2, 1, 1, 3, 3, 3, 4],
       [2, 2, 2, 2, 3, 2, 2, 2, 1, 3, 1, 1, 3, 3, 3, 4]]
    let wide := (op ∈ [0x09, 0x29, 0x49, 0x69, 0x89, 0xA9, 0xC9, 0xE9] ∧ m8 = false) ∨
      (op ∈ [0xA0, 0xA2, 0xC0, 0xE0] ∧ x8 = false)
    (encode m8 x8 i).head? = some i.opcode ∧
      (encode m8 x8 i).length = (short.getD (op / 16) []).getD (op % 16) 0 + (if wide then 1 else 0)

/-- R406, R86, R121: where nothing stands before the fetch (`Ready`), no device answers at the code bytes and the
opcode has a handler, a step is exactly `exec` of the instruction that the bytes at PBR:PC decode to. The first clause
says the same of any bus: the fetch reads the bytes once each, then the instruction executes on the bus after the
fetch. With MULTIBYTE_CROSSES_BANK the operand bytes of an instruction that spans the end of a bank lie in the next
bank (decision D2), which the second clause leaves to the first. -/
def Obligations.StepRunsTheDecodedInstruction : Prop :=
  (∀ s : State, s.Ready → s.plat.unimplemented.contains s.fetchOpcode.1 = false →
    step s = exec s.fetch.instr { s with bus := s.fetch.bus }) ∧
  (∀ (s : State) (i : Instr) (rest : List Byte), s.Ready → (∀ k, k < 4 → NoDevice s.plat (s.fetchAddr k)) →
    (s.plat.multibyteCrossesBank = false ∨ s.pc.toNat + 3 < 65536) → s.plat.unimplemented.contains i.opcode = false →
    decode s.m8 s.x8 s.codeBytes = .ok (i, rest) → step s = exec i s)

/-- R6, R121: a step never refuses, and it faults exactly when it is about to execute an opcode byte of UNIMPLEMENTED,
with that byte as the reason. -/
def Obligations.DefectIsTheOnlyStop : Prop :=
  ∀ s : State, (∀ r, step s ≠ .refused r) ∧
    (∀ g, step s = .fault g ↔ ∃ u, s.boundary = .execute u ∧ u.plat.unimplemented.contains u.fetchOpcode.1 = true ∧
      g = .defect u.fetchOpcode.1)

/-- R450, R402: the first step with RES deasserted, when reset is held or pending, is the reset sequence and nothing
else. The values of S, D, DBR, I and D are decisions D11 and D38. -/
def Obligations.ResetStep : Prop :=
  ∀ s : State, s.pins.res = false → (s.run = .resetHeld ∨ s.resetPending = true) →
    let v := memRead16 s.plat ⟨0x00#8, s.plat.emulationVectors.reset⟩ s.bus
    step s = .next
      { s with
        p := { s.p with e := true, m := true, x := true, i := true, d := false }
        x := zext16 (loByte s.x), y := zext16 (loByte s.y), sp := joinBytes 0x01#8 (loByte s.sp)
        dp := 0x0000#16, dbr := 0x00#8, pbr := 0x00#8, pc := v.1, bus := v.2
        nmiPending := false, abortPending := false, resetPending := false, run := .running
        cyc := s.cyc + BitVec.ofNat 64 s.plat.resetCycles }

/-- R402 to R405: RES holds the core; Stopped, RDY deasserted and a wait without a wake source are no-ops; a wait that
something wakes continues as Running in the same step. Waiting, Stopped and RDY follow decisions D33 to D35. -/
def Obligations.StepsThatDoNothing : Prop :=
  ∀ s : State,
    (s.pins.res = true → step s = .next { s with run := .resetHeld }) ∧
    (s.pins.res = false → s.resetPending = false →
      (s.run = .stopped → step s = .next s) ∧
      (s.run = .running ∨ s.run = .waiting → s.pins.rdy = false → step s = .next s) ∧
      (s.run = .waiting → s.pins.rdy = true →
        ((s.pins.irq || s.nmiPending || s.abortPending) = false → step s = .next s) ∧
        ((s.pins.irq || s.nmiPending || s.abortPending) = true → step s = step { s with run := .running })))

/-- R406 to R410, R477: at the boundary of a running core ABORT comes before NMI before IRQ, IRQ only with I clear;
the entry is a step of its own with the address of the next instruction as return address, and adds INT_ENTRY_CYCLES
of the mode before. NMI, ABORT and the priority follow decisions D29 to D31. -/
def Obligations.InterruptPriority : Prop :=
  ∀ s : State, s.pins.res = false → s.resetPending = false → s.run = .running → s.pins.rdy = true →
    let c := s.cyc + BitVec.ofNat 64 (if s.p.e then s.plat.intEntryCyclesE else s.plat.intEntryCyclesN)
    (s.abortPending = true →
      step s = .next { State.enter .abort s.pc { s with abortPending := false } with cyc := c }) ∧
    (s.abortPending = false → s.nmiPending = true →
      step s = .next { State.enter .nmi s.pc { s with nmiPending := false } with cyc := c }) ∧
    (s.abortPending = false → s.nmiPending = false → s.pins.irq = true → s.p.i = false →
      step s = .next { State.enter .irq s.pc s with cyc := c }) ∧
    (s.abortPending = false → s.nmiPending = false → s.pins.irq = true → s.p.i = true →
      s.plat.unimplemented.contains s.fetchOpcode.1 = false →
      step s = exec s.fetch.instr { s with bus := s.fetch.bus })

/-- R411, R413, R414, R420: what the shared entry does, byte by byte: 4 pushes in native mode, 3 in emulation mode
with B in the stacked flags, then I set, D cleared, PBR 0 and PC from the vector of the cause and the mode. The
clearing of D and PBR is decision D27, B is D14, page 1 is D10. -/
def Obligations.InterruptEntryFrame : Prop :=
  ∀ (k : Cause) (ret : Word) (s : State),
    let w := fun (n : Nat) (v : Byte) (b : Bus) => busWrite8 s.plat ⟨0x00#8, s.spAfter n⟩ v b
    let q := { s.p with b := if s.p.e then (k == Cause.brk || k == Cause.cop) else s.p.b }
    let flagsAt := if s.p.e then 2 else 3
    let b0 := if s.p.e then s.bus else w 0 s.pbr s.bus
    let b1 := w (flagsAt - 2) (hiByte ret) b0
    let b2 := w (flagsAt - 1) (loByte ret) b1
    let b3 := w flagsAt q.encode b2
    let v := memRead16 s.plat ⟨0x00#8, vectorOffset s.plat k s.p.e⟩ b3
    s.enter k ret =
      { s with p := { q with i := true, d := false }, sp := s.spAfter (flagsAt + 1), pbr := 0x00#8, pc := v.1,
               bus := v.2 }

/-- R342, R411, R412: pulling the frame that an entry of the same mode pushed gives back PC, S and the flags (B of the
cause in emulation mode, where the program bank is lost to 0) and, in native mode, PBR. The stack bytes must be
memory; the premise on S is R47's, the one on X and Y R50's. -/
def Obligations.RtiUndoesEntry : Prop :=
  ∀ (k : Cause) (ret : Word) (s : State), s.MemInv → s.ModeInv →
    (∀ a ∈ s.pushAddrs 4, InRegion s.plat a) →
    (s.enter k ret).returnFromInterrupt =
      { s with pc := ret, pbr := if s.p.e then 0x00#8 else s.pbr, bus := (s.enter k ret).bus,
               p := { s.p with b := if s.p.e then (k == Cause.brk || k == Cause.cop) else s.p.b } }

/-- R170 to R172: LDA in its 15 modes loads the accumulator at width wA (the hidden byte kept at width 8), LDX and LDY
in their five modes the index register at width wX (its high byte 0 at width 8), with N and Z of the value. -/
def Obligations.LoadsLoadTheRegister : Prop :=
  (∀ (d : Byte) (v a : Word) (l : Addr) (s : State), ∀ f ∈
       ([⟨0xA1#8, .ldaDpXInd d, .dpXInd d⟩, ⟨0xA3#8, .ldaSr d, .sr d⟩, ⟨0xA5#8, .ldaDp d, .dp d⟩,
        ⟨0xA7#8, .ldaDpIndL d, .dpIndL d⟩, ⟨0xA9#8, .ldaImm v, .immM v⟩, ⟨0xAD#8, .ldaAbs a, .abs a⟩,
        ⟨0xAF#8, .ldaAbsL l, .absL l⟩, ⟨0xB1#8, .ldaDpIndY d, .dpIndY d⟩, ⟨0xB2#8, .ldaDpInd d, .dpInd d⟩,
        ⟨0xB3#8, .ldaSrIndY d, .srIndY d⟩, ⟨0xB5#8, .ldaDpX d, .dpX d⟩, ⟨0xB7#8, .ldaDpIndLY d, .dpIndLY d⟩,
        ⟨0xB9#8, .ldaAbsY a, .absY a⟩, ⟨0xBD#8, .ldaAbsX a, .absX a⟩, ⟨0xBF#8, .ldaAbsLX l, .absLX l⟩] : List Form),
     let r := load f.mode s.wA s
     f.instr.opcode = f.op ∧ ∃ c, exec f.instr s = .next
       { s with a := writeKeep s.wA r.val s.a, p := s.p.nz s.wA r.val, bus := r.bus,
                pc := s.pc + BitVec.ofNat 16 (f.mode.len s.m8 s.x8), cyc := c }) ∧
  (∀ (d : Byte) (v a : Word) (s : State),
     (∀ f ∈
       ([⟨0xA2#8, .ldxImm v, .immX v⟩, ⟨0xA6#8, .ldxDp d, .dp d⟩, ⟨0xAE#8, .ldxAbs a, .abs a⟩,
        ⟨0xB6#8, .ldxDpY d, .dpY d⟩, ⟨0xBE#8, .ldxAbsY a, .absY a⟩] : List Form),
       let r := load f.mode s.wX s
       f.instr.opcode = f.op ∧ ∃ c, exec f.instr s = .next
         { s with x := trunc s.wX r.val, p := s.p.nz s.wX r.val, bus := r.bus,
                  pc := s.pc + BitVec.ofNat 16 (f.mode.len s.m8 s.x8), cyc := c }) ∧
     (∀ f ∈
       ([⟨0xA0#8, .ldyImm v, .immX v⟩, ⟨0xA4#8, .ldyDp d, .dp d⟩, ⟨0xAC#8, .ldyAbs a, .abs a⟩,
        ⟨0xB4#8, .ldyDpX d, .dpX d⟩, ⟨0xBC#8, .ldyAbsX a, .absX a⟩] : List Form),
       let r := load f.mode s.wX s
       f.instr.opcode = f.op ∧ ∃ c, exec f.instr s = .next
         { s with y := trunc s.wX r.val, p := s.p.nz s.wX r.val, bus := r.bus,
                  pc := s.pc + BitVec.ofNat 16 (f.mode.len s.m8 s.x8), cyc := c }))

/-- R173 to R176: STA and STZ at width wA, STX and STY at width wX, write the register (0 for STZ) at the effective
address, low byte first, and change no register and no flag. -/
def Obligations.StoresWriteTheRegister : Prop :=
  ∀ (d : Byte) (a : Word) (l : Addr) (s : State),
    let stored := fun (f : Form) (w : Width) (v : Word) =>
      f.instr.opcode = f.op ∧ ∃ c, exec f.instr s = .next
        { s with bus := memWrite s.plat w (resolve f.mode s).addr v (resolve f.mode s).bus,
                 pc := s.pc + BitVec.ofNat 16 (f.mode.len s.m8 s.x8), cyc := c }
    (∀ f ∈
      ([⟨0x81#8, .staDpXInd d, .dpXInd d⟩, ⟨0x83#8, .staSr d, .sr d⟩, ⟨0x85#8, .staDp d, .dp d⟩,
       ⟨0x87#8, .staDpIndL d, .dpIndL d⟩, ⟨0x8D#8, .staAbs a, .abs a⟩, ⟨0x8F#8, .staAbsL l, .absL l⟩,
       ⟨0x91#8, .staDpIndY d, .dpIndY d⟩, ⟨0x92#8, .staDpInd d, .dpInd d⟩, ⟨0x93#8, .staSrIndY d, .srIndY d⟩,
       ⟨0x95#8, .staDpX d, .dpX d⟩, ⟨0x97#8, .staDpIndLY d, .dpIndLY d⟩, ⟨0x99#8, .staAbsY a, .absY a⟩,
       ⟨0x9D#8, .staAbsX a, .absX a⟩, ⟨0x9F#8, .staAbsLX l, .absLX l⟩] : List Form),
      stored f s.wA (trunc s.wA s.a)) ∧
    (∀ f ∈
      ([⟨0x86#8, .stxDp d, .dp d⟩, ⟨0x8E#8, .stxAbs a, .abs a⟩, ⟨0x96#8, .stxDpY d, .dpY d⟩] : List Form),
      stored f s.wX (trunc s.wX s.x)) ∧
    (∀ f ∈
      ([⟨0x84#8, .styDp d, .dp d⟩, ⟨0x8C#8, .styAbs a, .abs a⟩, ⟨0x94#8, .styDpX d, .dpX d⟩] : List Form),
      stored f s.wX (trunc s.wX s.y)) ∧
    (∀ f ∈
      ([⟨0x64#8, .stzDp d, .dp d⟩, ⟨0x74#8, .stzDpX d, .dpX d⟩, ⟨0x9C#8, .stzAbs a, .abs a⟩,
       ⟨0x9E#8, .stzAbsX a, .absX a⟩] : List Form),
      stored f s.wA 0x0000#16)

/-- R196: ADC in its 15 modes: binary or decimal sum by D, V always of the binary sum (decision D22), N and Z of the
result. On a digit 10 to 15 in decimal mode the result is a free value (decision D23); a decimal operation advances
the counter of free values by two, which is the model's own (log 9). -/
def Obligations.AdcAddsWithCarry : Prop :=
  ∀ (d : Byte) (v a : Word) (l : Addr) (s : State), ∀ f ∈
      ([⟨0x61#8, .adcDpXInd d, .dpXInd d⟩, ⟨0x63#8, .adcSr d, .sr d⟩, ⟨0x65#8, .adcDp d, .dp d⟩,
       ⟨0x67#8, .adcDpIndL d, .dpIndL d⟩, ⟨0x69#8, .adcImm v, .immM v⟩, ⟨0x6D#8, .adcAbs a, .abs a⟩,
       ⟨0x6F#8, .adcAbsL l, .absL l⟩, ⟨0x71#8, .adcDpIndY d, .dpIndY d⟩, ⟨0x72#8, .adcDpInd d, .dpInd d⟩,
       ⟨0x73#8, .adcSrIndY d, .srIndY d⟩, ⟨0x75#8, .adcDpX d, .dpX d⟩, ⟨0x77#8, .adcDpIndLY d, .dpIndLY d⟩,
       ⟨0x79#8, .adcAbsY a, .absY a⟩, ⟨0x7D#8, .adcAbsX a, .absX a⟩, ⟨0x7F#8, .adcAbsLX l, .absLX l⟩] : List Form),
    let r := load f.mode s.wA s
    let acc := trunc s.wA s.a
    let sum := if s.p.d then decAdd s.wA r.bus.draws acc r.val s.p.c else addBin s.wA acc r.val s.p.c
    f.instr.opcode = f.op ∧ ∃ c, exec f.instr s = .next
      { s with a := writeKeep s.wA sum.1 s.a
               p := { s.p with n := topBit s.wA sum.1, v := overflow s.wA acc r.val s.p.c,
                               z := trunc s.wA sum.1 == 0#16, c := sum.2 }
               bus := { r.bus with draws := r.bus.draws + (if s.p.d then 2 else 0) }
               pc := s.pc + BitVec.ofNat 16 (f.mode.len s.m8 s.x8), cyc := c }

/-- R197: SBC in its 15 modes: the binary form adds the complement, the decimal form subtracts digits (16-bit by the
parameter DecSbc16, decision D24), V of the binary form. The free values are as in ADC (log 9). -/
def Obligations.SbcSubtractsWithBorrow : Prop :=
  ∀ (d : Byte) (v a : Word) (l : Addr) (s : State), ∀ f ∈
      ([⟨0xE1#8, .sbcDpXInd d, .dpXInd d⟩, ⟨0xE3#8, .sbcSr d, .sr d⟩, ⟨0xE5#8, .sbcDp d, .dp d⟩,
       ⟨0xE7#8, .sbcDpIndL d, .dpIndL d⟩, ⟨0xE9#8, .sbcImm v, .immM v⟩, ⟨0xED#8, .sbcAbs a, .abs a⟩,
       ⟨0xEF#8, .sbcAbsL l, .absL l⟩, ⟨0xF1#8, .sbcDpIndY d, .dpIndY d⟩, ⟨0xF2#8, .sbcDpInd d, .dpInd d⟩,
       ⟨0xF3#8, .sbcSrIndY d, .srIndY d⟩, ⟨0xF5#8, .sbcDpX d, .dpX d⟩, ⟨0xF7#8, .sbcDpIndLY d, .dpIndLY d⟩,
       ⟨0xF9#8, .sbcAbsY a, .absY a⟩, ⟨0xFD#8, .sbcAbsX a, .absX a⟩, ⟨0xFF#8, .sbcAbsLX l, .absLX l⟩] : List Form),
    let r := load f.mode s.wA s
    let acc := trunc s.wA s.a
    let inv := trunc s.wA (~~~r.val)
    let dif := if s.p.d then decSub s.plat.decSbc16 s.wA r.bus.draws acc r.val s.p.c else addBin s.wA acc inv s.p.c
    f.instr.opcode = f.op ∧ ∃ c, exec f.instr s = .next
      { s with a := writeKeep s.wA dif.1 s.a
               p := { s.p with n := topBit s.wA dif.1, v := overflow s.wA acc inv s.p.c,
                               z := trunc s.wA dif.1 == 0#16, c := dif.2 }
               bus := { r.bus with draws := r.bus.draws + (if s.p.d then 2 else 0) }
               pc := s.pc + BitVec.ofNat 16 (f.mode.len s.m8 s.x8), cyc := c }

/-- R198 to R200: AND, ORA and EOR in their 15 modes: the accumulator at width wA, N and Z of the result. -/
def Obligations.LogicOnTheAccumulator : Prop :=
  ∀ (d : Byte) (v a : Word) (l : Addr) (s : State),
    let logic := fun (f : Form) (r : Word) =>
      f.instr.opcode = f.op ∧ ∃ c, exec f.instr s = .next
        { s with a := writeKeep s.wA r s.a, p := s.p.nz s.wA r, bus := (load f.mode s.wA s).bus,
                 pc := s.pc + BitVec.ofNat 16 (f.mode.len s.m8 s.x8), cyc := c }
    (∀ f ∈
      ([⟨0x21#8, .andDpXInd d, .dpXInd d⟩, ⟨0x23#8, .andSr d, .sr d⟩, ⟨0x25#8, .andDp d, .dp d⟩,
       ⟨0x27#8, .andDpIndL d, .dpIndL d⟩, ⟨0x29#8, .andImm v, .immM v⟩, ⟨0x2D#8, .andAbs a, .abs a⟩,
       ⟨0x2F#8, .andAbsL l, .absL l⟩, ⟨0x31#8, .andDpIndY d, .dpIndY d⟩, ⟨0x32#8, .andDpInd d, .dpInd d⟩,
       ⟨0x33#8, .andSrIndY d, .srIndY d⟩, ⟨0x35#8, .andDpX d, .dpX d⟩, ⟨0x37#8, .andDpIndLY d, .dpIndLY d⟩,
       ⟨0x39#8, .andAbsY a, .absY a⟩, ⟨0x3D#8, .andAbsX a, .absX a⟩, ⟨0x3F#8, .andAbsLX l, .absLX l⟩] : List Form),
      logic f (trunc s.wA s.a &&& (load f.mode s.wA s).val)) ∧
    (∀ f ∈
      ([⟨0x01#8, .oraDpXInd d, .dpXInd d⟩, ⟨0x03#8, .oraSr d, .sr d⟩, ⟨0x05#8, .oraDp d, .dp d⟩,
       ⟨0x07#8, .oraDpIndL d, .dpIndL d⟩, ⟨0x09#8, .oraImm v, .immM v⟩, ⟨0x0D#8, .oraAbs a, .abs a⟩,
       ⟨0x0F#8, .oraAbsL l, .absL l⟩, ⟨0x11#8, .oraDpIndY d, .dpIndY d⟩, ⟨0x12#8, .oraDpInd d, .dpInd d⟩,
       ⟨0x13#8, .oraSrIndY d, .srIndY d⟩, ⟨0x15#8, .oraDpX d, .dpX d⟩, ⟨0x17#8, .oraDpIndLY d, .dpIndLY d⟩,
       ⟨0x19#8, .oraAbsY a, .absY a⟩, ⟨0x1D#8, .oraAbsX a, .absX a⟩, ⟨0x1F#8, .oraAbsLX l, .absLX l⟩] : List Form),
      logic f (trunc s.wA s.a ||| (load f.mode s.wA s).val)) ∧
    (∀ f ∈
      ([⟨0x41#8, .eorDpXInd d, .dpXInd d⟩, ⟨0x43#8, .eorSr d, .sr d⟩, ⟨0x45#8, .eorDp d, .dp d⟩,
       ⟨0x47#8, .eorDpIndL d, .dpIndL d⟩, ⟨0x49#8, .eorImm v, .immM v⟩, ⟨0x4D#8, .eorAbs a, .abs a⟩,
       ⟨0x4F#8, .eorAbsL l, .absL l⟩, ⟨0x51#8, .eorDpIndY d, .dpIndY d⟩, ⟨0x52#8, .eorDpInd d, .dpInd d⟩,
       ⟨0x53#8, .eorSrIndY d, .srIndY d⟩, ⟨0x55#8, .eorDpX d, .dpX d⟩, ⟨0x57#8, .eorDpIndLY d, .dpIndLY d⟩,
       ⟨0x59#8, .eorAbsY a, .absY a⟩, ⟨0x5D#8, .eorAbsX a, .absX a⟩, ⟨0x5F#8, .eorAbsLX l, .absLX l⟩] : List Form),
      logic f (trunc s.wA s.a ^^^ (load f.mode s.wA s).val))

/-- R201: BIT writes Z of the AND; the memory forms write N and V from the top two bits of the operand, the immediate
form does not. -/
def Obligations.BitTestsTheAccumulator : Prop :=
  ∀ (d : Byte) (v a : Word) (s : State),
    (∀ f ∈
      ([⟨0x24#8, .bitDp d, .dp d⟩, ⟨0x2C#8, .bitAbs a, .abs a⟩, ⟨0x34#8, .bitDpX d, .dpX d⟩,
       ⟨0x3C#8, .bitAbsX a, .absX a⟩] : List Form),
      let r := load f.mode s.wA s
      f.instr.opcode = f.op ∧ ∃ c, exec f.instr s = .next
        { s with p := { s.p with n := topBit s.wA r.val, v := secondBit s.wA r.val,
                                 z := trunc s.wA s.a &&& r.val == 0#16 }
                 bus := r.bus, pc := s.pc + BitVec.ofNat 16 (f.mode.len s.m8 s.x8), cyc := c }) ∧
    (∀ f ∈
      ([⟨0x89#8, .bitImm v, .immM v⟩] : List Form),
      let r := load f.mode s.wA s
      f.instr.opcode = f.op ∧ ∃ c, exec f.instr s = .next
        { s with p := { s.p with z := trunc s.wA s.a &&& r.val == 0#16 }
                 pc := s.pc + BitVec.ofNat 16 (f.mode.len s.m8 s.x8), cyc := c })

/-- R202 to R204, R213: CMP, CPX and CPY: C is 1 exactly when the register is not less than the operand as unsigned
numbers, Z when they are equal, N is the top bit of the difference; V and the registers are unchanged, also in decimal
mode. -/
def Obligations.ComparesSetTheFlags : Prop :=
  ∀ (d : Byte) (v a : Word) (l : Addr) (s : State),
    let compared := fun (f : Form) (w : Width) (r : Word) =>
      let m := load f.mode w s
      f.instr.opcode = f.op ∧ ∃ c, exec f.instr s = .next
        { s with p := { s.p with n := topBit w (r - m.val), z := r == m.val, c := decide (m.val.toNat ≤ r.toNat) }
                 bus := m.bus, pc := s.pc + BitVec.ofNat 16 (f.mode.len s.m8 s.x8), cyc := c }
    (∀ f ∈
      ([⟨0xC1#8, .cmpDpXInd d, .dpXInd d⟩, ⟨0xC3#8, .cmpSr d, .sr d⟩, ⟨0xC5#8, .cmpDp d, .dp d⟩,
       ⟨0xC7#8, .cmpDpIndL d, .dpIndL d⟩, ⟨0xC9#8, .cmpImm v, .immM v⟩, ⟨0xCD#8, .cmpAbs a, .abs a⟩,
       ⟨0xCF#8, .cmpAbsL l, .absL l⟩, ⟨0xD1#8, .cmpDpIndY d, .dpIndY d⟩, ⟨0xD2#8, .cmpDpInd d, .dpInd d⟩,
       ⟨0xD3#8, .cmpSrIndY d, .srIndY d⟩, ⟨0xD5#8, .cmpDpX d, .dpX d⟩, ⟨0xD7#8, .cmpDpIndLY d, .dpIndLY d⟩,
       ⟨0xD9#8, .cmpAbsY a, .absY a⟩, ⟨0xDD#8, .cmpAbsX a, .absX a⟩, ⟨0xDF#8, .cmpAbsLX l, .absLX l⟩] : List Form),
      compared f s.wA (trunc s.wA s.a)) ∧
    (∀ f ∈
      ([⟨0xE0#8, .cpxImm v, .immX v⟩, ⟨0xE4#8, .cpxDp d, .dp d⟩, ⟨0xEC#8, .cpxAbs a, .abs a⟩] : List Form),
      compared f s.wX (trunc s.wX s.x)) ∧
    (∀ f ∈
      ([⟨0xC0#8, .cpyImm v, .immX v⟩, ⟨0xC4#8, .cpyDp d, .dp d⟩, ⟨0xCC#8, .cpyAbs a, .abs a⟩] : List Form),
      compared f s.wX (trunc s.wX s.y))

/-- R205, R206: INC and DEC on the accumulator or on memory, modulo 2^w, N and Z of the result; the memory form reads,
then writes, the same address (decision D8: no dummy access). -/
def Obligations.IncAndDecCountModuloTheWidth : Prop :=
  ∀ (d : Byte) (a : Word) (s : State),
    let up := fun (v : Word) => BitVec.ofNat 16 ((v.toNat + 1) % 2 ^ s.wA.bits)
    let down := fun (v : Word) => BitVec.ofNat 16 ((v.toNat + 2 ^ s.wA.bits - 1) % 2 ^ s.wA.bits)
    let onA := fun (f : Form) (g : Word → Word) =>
      f.instr.opcode = f.op ∧ ∃ c, exec f.instr s = .next
        { s with a := writeKeep s.wA (g (trunc s.wA s.a)) s.a, p := s.p.nz s.wA (g (trunc s.wA s.a)),
                 pc := s.pc + 1#16, cyc := c }
    let onMemory := fun (f : Form) (g : Word → Word) =>
      let e := resolve f.mode s
      let r := memRead s.plat s.wA e.addr e.bus
      f.instr.opcode = f.op ∧ ∃ c, exec f.instr s = .next
        { s with bus := memWrite s.plat s.wA e.addr (g r.1) r.2, p := s.p.nz s.wA (g r.1),
                 pc := s.pc + BitVec.ofNat 16 (f.mode.len s.m8 s.x8), cyc := c }
    (∀ f ∈ ([⟨0x1A#8, .incA, .acc⟩] : List Form), onA f up) ∧ (∀ f ∈ ([⟨0x3A#8, .decA, .acc⟩] : List Form), onA f down) ∧
    (∀ f ∈
      ([⟨0xE6#8, .incDp d, .dp d⟩, ⟨0xEE#8, .incAbs a, .abs a⟩, ⟨0xF6#8, .incDpX d, .dpX d⟩,
       ⟨0xFE#8, .incAbsX a, .absX a⟩] : List Form),
      onMemory f up) ∧
    (∀ f ∈
      ([⟨0xC6#8, .decDp d, .dp d⟩, ⟨0xCE#8, .decAbs a, .abs a⟩, ⟨0xD6#8, .decDpX d, .dpX d⟩,
       ⟨0xDE#8, .decAbsX a, .absX a⟩] : List Form),
      onMemory f down)

/-- R207 to R210: INX, INY, DEX and DEY count modulo 2^w at the index width, with N and Z of the result. -/
def Obligations.IndexCountersCountModuloTheWidth : Prop :=
  ∀ s : State,
    let n := 2 ^ s.wX.bits
    let up := fun (v : Word) => BitVec.ofNat 16 (((trunc s.wX v).toNat + 1) % n)
    let down := fun (v : Word) => BitVec.ofNat 16 (((trunc s.wX v).toNat + n - 1) % n)
    Instr.opcode .inx = 0xE8#8 ∧ Instr.opcode .iny = 0xC8#8 ∧ Instr.opcode .dex = 0xCA#8 ∧ Instr.opcode .dey = 0x88#8 ∧
    (∃ c, exec .inx s = .next { s with x := up s.x, p := s.p.nz s.wX (up s.x), pc := s.pc + 1#16, cyc := c }) ∧
    (∃ c, exec .iny s = .next { s with y := up s.y, p := s.p.nz s.wX (up s.y), pc := s.pc + 1#16, cyc := c }) ∧
    (∃ c, exec .dex s = .next { s with x := down s.x, p := s.p.nz s.wX (down s.x), pc := s.pc + 1#16, cyc := c }) ∧
    (∃ c, exec .dey s = .next { s with y := down s.y, p := s.p.nz s.wX (down s.y), pc := s.pc + 1#16, cyc := c })

/-- R211, R212: TSB and TRB set or clear in memory the bits of the accumulator, and write Z of the AND alone. -/
def Obligations.TestAndSetOrResetBits : Prop :=
  ∀ (d : Byte) (a : Word) (s : State),
    let acc := trunc s.wA s.a
    let tested := fun (f : Form) (g : Word → Word) =>
      let e := resolve f.mode s
      let r := memRead s.plat s.wA e.addr e.bus
      f.instr.opcode = f.op ∧ ∃ c, exec f.instr s = .next
        { s with bus := memWrite s.plat s.wA e.addr (g r.1) r.2, p := { s.p with z := acc &&& r.1 == 0#16 },
                 pc := s.pc + BitVec.ofNat 16 (f.mode.len s.m8 s.x8), cyc := c }
    (∀ f ∈
      ([⟨0x04#8, .tsbDp d, .dp d⟩, ⟨0x0C#8, .tsbAbs a, .abs a⟩] : List Form),
      tested f (fun m => m ||| acc)) ∧
    (∀ f ∈
      ([⟨0x14#8, .trbDp d, .dp d⟩, ⟨0x1C#8, .trbAbs a, .abs a⟩] : List Form),
      tested f (fun m => m &&& trunc s.wA (~~~acc)))

/-- R230 to R234: ASL doubles modulo 2^w and LSR halves, ROL and ROR do so through the carry as it was before; C
receives the bit that leaves, N and Z follow the result. The memory form makes no dummy access (decision D8). -/
def Obligations.ShiftsAndRotates : Prop :=
  (∀ (d : Byte) (a : Word) (s : State),
     let n := 2 ^ s.wA.bits
     let top := fun (v : Word) => decide (n / 2 ≤ v.toNat)
     let low := fun (v : Word) => decide (v.toNat % 2 = 1)
     let left := fun (v : Word) => BitVec.ofNat 16 (2 * v.toNat % n)
     let right := fun (v : Word) => BitVec.ofNat 16 (v.toNat / 2)
     let onA := fun (f : Form) (g : Word → Word) (out : Word → Bool) =>
       let v := trunc s.wA s.a
       f.instr.opcode = f.op ∧ ∃ c, exec f.instr s = .next
         { s with a := writeKeep s.wA (g v) s.a, p := { s.p.nz s.wA (g v) with c := out v },
                  pc := s.pc + 1#16, cyc := c }
     let onMemory := fun (f : Form) (g : Word → Word) (out : Word → Bool) =>
       let e := resolve f.mode s
       let r := memRead s.plat s.wA e.addr e.bus
       f.instr.opcode = f.op ∧ ∃ c, exec f.instr s = .next
         { s with bus := memWrite s.plat s.wA e.addr (g r.1) r.2, p := { s.p.nz s.wA (g r.1) with c := out r.1 },
                  pc := s.pc + BitVec.ofNat 16 (f.mode.len s.m8 s.x8), cyc := c }
     (∀ f ∈ ([⟨0x0A#8, .aslA, .acc⟩] : List Form), onA f left top) ∧
     (∀ f ∈
       ([⟨0x06#8, .aslDp d, .dp d⟩, ⟨0x0E#8, .aslAbs a, .abs a⟩, ⟨0x16#8, .aslDpX d, .dpX d⟩,
        ⟨0x1E#8, .aslAbsX a, .absX a⟩] : List Form),
       onMemory f left top) ∧
     (∀ f ∈ ([⟨0x4A#8, .lsrA, .acc⟩] : List Form), onA f right low) ∧
     (∀ f ∈
       ([⟨0x46#8, .lsrDp d, .dp d⟩, ⟨0x4E#8, .lsrAbs a, .abs a⟩, ⟨0x56#8, .lsrDpX d, .dpX d⟩,
        ⟨0x5E#8, .lsrAbsX a, .absX a⟩] : List Form),
       onMemory f right low)) ∧
  (∀ (d : Byte) (a : Word) (s : State),
     let n := 2 ^ s.wA.bits
     let top := fun (v : Word) => decide (n / 2 ≤ v.toNat)
     let low := fun (v : Word) => decide (v.toNat % 2 = 1)
     let left := fun (v : Word) => BitVec.ofNat 16 (2 * v.toNat % n + s.p.c.toNat)
     let right := fun (v : Word) => BitVec.ofNat 16 (v.toNat / 2 + s.p.c.toNat * (n / 2))
     let onA := fun (f : Form) (g : Word → Word) (out : Word → Bool) =>
       let v := trunc s.wA s.a
       f.instr.opcode = f.op ∧ ∃ c, exec f.instr s = .next
         { s with a := writeKeep s.wA (g v) s.a, p := { s.p.nz s.wA (g v) with c := out v },
                  pc := s.pc + 1#16, cyc := c }
     let onMemory := fun (f : Form) (g : Word → Word) (out : Word → Bool) =>
       let e := resolve f.mode s
       let r := memRead s.plat s.wA e.addr e.bus
       f.instr.opcode = f.op ∧ ∃ c, exec f.instr s = .next
         { s with bus := memWrite s.plat s.wA e.addr (g r.1) r.2, p := { s.p.nz s.wA (g r.1) with c := out r.1 },
                  pc := s.pc + BitVec.ofNat 16 (f.mode.len s.m8 s.x8), cyc := c }
     (∀ f ∈ ([⟨0x2A#8, .rolA, .acc⟩] : List Form), onA f left top) ∧
     (∀ f ∈
       ([⟨0x26#8, .rolDp d, .dp d⟩, ⟨0x2E#8, .rolAbs a, .abs a⟩, ⟨0x36#8, .rolDpX d, .dpX d⟩,
        ⟨0x3E#8, .rolAbsX a, .absX a⟩] : List Form),
       onMemory f left top) ∧
     (∀ f ∈ ([⟨0x6A#8, .rorA, .acc⟩] : List Form), onA f right low) ∧
     (∀ f ∈
       ([⟨0x66#8, .rorDp d, .dp d⟩, ⟨0x6E#8, .rorAbs a, .abs a⟩, ⟨0x76#8, .rorDpX d, .dpX d⟩,
        ⟨0x7E#8, .rorAbsX a, .absX a⟩] : List Form),
       onMemory f right low))

/-- R241 to R248 (and R249), R133: a branch goes to the next instruction plus its signed displacement when its
condition holds, else to the next instruction, in the same bank; no flag changes. That the target wraps inside the
bank is R133. -/
def Obligations.BranchesGoWhereTheirFlagSays : Prop :=
  ∀ (r : Byte) (s : State), ∀ f ∈
      ([⟨0x10#8, .bpl r, !s.p.n⟩, ⟨0x30#8, .bmi r, s.p.n⟩, ⟨0x50#8, .bvc r, !s.p.v⟩, ⟨0x70#8, .bvs r, s.p.v⟩,
       ⟨0x80#8, .bra r, true⟩, ⟨0x90#8, .bcc r, !s.p.c⟩, ⟨0xB0#8, .bcs r, s.p.c⟩, ⟨0xD0#8, .bne r, !s.p.z⟩,
       ⟨0xF0#8, .beq r, s.p.z⟩] : List BranchForm),
    let next := s.pc.toNat + 2
    f.instr.opcode = f.op ∧ ∃ c, exec f.instr s = .next
      { s with pc := if f.taken then BitVec.ofInt 16 (next + r.toInt) else BitVec.ofNat 16 next, cyc := c }

/-- R250 to R255: BRL adds a signed 16-bit displacement to the next instruction in its bank; JMP abs stays in the
program bank (decision D19); JML long sets the bank too; JMP (abs) and JML [abs] read their pointer in bank 0, JMP
(abs,X) in the program bank at the indexed offset (decision D19). -/
def Obligations.JumpsLoadTheProgramAddress : Prop :=
  (∀ (r a : Word) (l : Addr) (s : State),
     (∀ f ∈ ([⟨0x82#8, .brl r, .rel16 r⟩] : List Form), f.instr.opcode = f.op ∧ ∃ c, exec f.instr s = .next
       { s with pc := BitVec.ofInt 16 (s.pc.toNat + 3 + r.toInt), cyc := c }) ∧
     (∀ f ∈ ([⟨0x4C#8, .jmpAbs a, .abs a⟩] : List Form), f.instr.opcode = f.op ∧ ∃ c, exec f.instr s = .next
       { s with pc := a, cyc := c }) ∧
     (∀ f ∈ ([⟨0x5C#8, .jmlAbsL l, .absL l⟩] : List Form), f.instr.opcode = f.op ∧ ∃ c, exec f.instr s = .next
       { s with pbr := l.bank, pc := l.offset, cyc := c })) ∧
  (∀ (a : Word) (s : State),
     (∀ f ∈ ([⟨0x6C#8, .jmpAbsInd a, .absInd a⟩] : List Form),
       let p := memRead16 s.plat ⟨0x00#8, a⟩ s.bus
       f.instr.opcode = f.op ∧ ∃ c, exec f.instr s = .next { s with pc := p.1, bus := p.2, cyc := c }) ∧
     (∀ f ∈ ([⟨0x7C#8, .jmpAbsXInd a, .absXInd a⟩] : List Form),
       let p := memRead16 s.plat ⟨s.pbr, a + trunc s.wX s.x⟩ s.bus
       f.instr.opcode = f.op ∧ ∃ c, exec f.instr s = .next { s with pc := p.1, bus := p.2, cyc := c }) ∧
     (∀ f ∈ ([⟨0xDC#8, .jmlAbsIndL a, .absIndL a⟩] : List Form),
       let p := memRead24 s.plat ⟨0x00#8, a⟩ s.bus
       f.instr.opcode = f.op ∧ ∃ c, exec f.instr s = .next
         { s with pbr := p.1.bank, pc := p.1.offset, bus := p.2, cyc := c }))

/-- R256 to R258: JSR pushes the address of its last byte; JSR (abs,X) reads its pointer first (decision D7); JSL
pushes the bank first. Where the pushed bytes go and what S becomes is PushAndPullOneByte. -/
def Obligations.CallsPushTheReturnAddress : Prop :=
  ∀ (a : Word) (l : Addr) (s : State),
    (∀ f ∈ ([⟨0x20#8, .jsrAbs a, .abs a⟩] : List Form),
      let t := s.push16 (s.pc + 2#16)
      f.instr.opcode = f.op ∧ ∃ c, exec f.instr s = .next { s with pc := a, sp := t.sp, bus := t.bus, cyc := c }) ∧
    (∀ f ∈ ([⟨0xFC#8, .jsrAbsXInd a, .absXInd a⟩] : List Form),
      let p := memRead16 s.plat ⟨s.pbr, a + trunc s.wX s.x⟩ s.bus
      let t := State.push16 (s.pc + 2#16) { s with bus := p.2 }
      f.instr.opcode = f.op ∧ ∃ c, exec f.instr s = .next { s with pc := p.1, sp := t.sp, bus := t.bus, cyc := c }) ∧
    (∀ f ∈ ([⟨0x22#8, .jslAbsL l, .absL l⟩] : List Form),
      let t := s.push24 s.pbr (s.pc + 3#16)
      f.instr.opcode = f.op ∧ ∃ c, exec f.instr s = .next
        { s with pbr := l.bank, pc := l.offset, sp := t.sp, bus := t.bus, cyc := c })

/-- R259, R260: RTS goes to the pulled offset plus one in the same bank; RTL also pulls the bank, and the increment
does not carry into it. -/
def Obligations.ReturnsPullAndAddOne : Prop :=
  ∀ s : State, Instr.opcode .rts = 0x60#8 ∧ Instr.opcode .rtl = 0x6B#8 ∧
    (let r := s.pull16
     ∃ c, exec .rts s = .next { s with pc := r.1 + 1#16, sp := r.2.sp, bus := r.2.bus, cyc := c }) ∧
    (let r := s.pull24
     ∃ c, exec .rtl s = .next
       { s with pc := r.1.offset + 1#16, pbr := r.1.bank, sp := r.2.sp, bus := r.2.bus, cyc := c })

/-- R256, R258 to R260: a return executed after its call, with the stack in memory, resumes after the call with S and
PBR as before it. The premise on S is R47's. -/
def Obligations.ReturnUndoesCall : Prop :=
  ∀ (a : Word) (l : Addr) (s : State), s.MemInv → s.EmulationInv → (∀ x ∈ s.pushAddrs 3, InRegion s.plat x) →
    (∃ t u, exec (.jsrAbs a) s = .next t ∧ exec .rts t = .next u ∧ t.pc = a ∧ t.pbr = s.pbr ∧
      u.pc = s.pc + 3#16 ∧ u.pbr = s.pbr ∧ u.sp = s.sp) ∧
    (∃ t u, exec (.jslAbsL l) s = .next t ∧ exec .rtl t = .next u ∧ t.pc = l.offset ∧ t.pbr = l.bank ∧
      u.pc = s.pc + 4#16 ∧ u.pbr = s.pbr ∧ u.sp = s.sp)

/-- R90, R91: a push writes at $00:S, then decrements S; a pull increments S, then reads at $00:S; in emulation mode
with EMU_STACK_PAGE1 only the low byte of S counts and the high byte is 0x01 (decision D10), else S counts modulo
2^16. -/
def Obligations.PushAndPullOneByte : Prop :=
  ∀ (v : Byte) (s : State),
    let one := s.p.e && s.plat.emuStackPage1
    let down := BitVec.ofNat 16 (if one then 256 + (s.sp.toNat % 256 + 255) % 256 else (s.sp.toNat + 65535) % 65536)
    let up := BitVec.ofNat 16 (if one then 256 + (s.sp.toNat % 256 + 1) % 256 else (s.sp.toNat + 1) % 65536)
    let r := busRead8 s.plat ⟨0x00#8, up⟩ s.bus
    s.push8 v = { s with sp := down, bus := busWrite8 s.plat ⟨0x00#8, s.sp⟩ v s.bus } ∧
    s.pull8 = (r.1, { s with sp := up, bus := r.2 })

/-- R90 to R93: what was pushed is pulled back, low byte at the lower address, and S is restored, where the stack
bytes are memory. -/
def Obligations.PullUndoesPush : Prop :=
  ∀ (v : Byte) (w : Word) (s : State), s.MemInv → s.EmulationInv → (∀ a ∈ s.pushAddrs 3, InRegion s.plat a) →
    (s.push8 v).pull8 = (v, { s.push8 v with sp := s.sp }) ∧
    (s.push16 w).pull16 = (w, { s.push16 w with sp := s.sp }) ∧
    (s.push24 v w).pull24 = (⟨v, w⟩, { s.push24 v w with sp := s.sp })

/-- R270 to R272, R274, R276 (and R275): a register is pushed at its own width, and no flag changes. -/
def Obligations.PushesOfRegisters : Prop :=
  ∀ s : State,
    let pushed := fun (i : Instr) (t : State) =>
      ∃ c, exec i s = .next { s with sp := t.sp, bus := t.bus, pc := s.pc + 1#16, cyc := c }
    Instr.opcode .pha = 0x48#8 ∧ Instr.opcode .phx = 0xDA#8 ∧ Instr.opcode .phy = 0x5A#8 ∧
    Instr.opcode .phb = 0x8B#8 ∧ Instr.opcode .phk = 0x4B#8 ∧ Instr.opcode .phd = 0x0B#8 ∧
    pushed .pha (if s.m8 then s.push8 (loByte s.a) else s.push16 s.a) ∧
    pushed .phx (if s.x8 then s.push8 (loByte s.x) else s.push16 s.x) ∧
    pushed .phy (if s.x8 then s.push8 (loByte s.y) else s.push16 s.y) ∧
    pushed .phb (s.push8 s.dbr) ∧ pushed .phk (s.push8 s.pbr) ∧ pushed .phd (s.push16 s.dp)

/-- R273, R280, R42 to R44: PHP pushes the status byte, with B set first in emulation mode (decision D14); PLP loads
the flags from the pulled byte; in native mode M and X too, and X = 1 clears the index high bytes (decision D17); in
emulation mode B, with M and X kept (decision D13); E never changes. -/
def Obligations.PhpAndPlpMoveTheStatus : Prop :=
  (∀ s : State,
     let p := { s.p with b := if s.p.e then true else s.p.b }
     let byte := BitVec.ofNat 8 (p.n.toNat * 128 + p.v.toNat * 64 + (p.e || p.m).toNat * 32 +
       (if p.e then p.b else p.x).toNat * 16 + p.d.toNat * 8 + p.i.toNat * 4 + p.z.toNat * 2 + p.c.toNat)
     let t := s.push8 byte
     Instr.opcode .php = 0x08#8 ∧ ∃ c, exec .php s = .next
       { s with p := p, sp := t.sp, bus := t.bus, pc := s.pc + 1#16, cyc := c }) ∧
  (∀ s : State,
     let r := s.pull8
     let q := (if s.p.e then
         { s.p with n := r.1.getLsbD 7, v := r.1.getLsbD 6, b := r.1.getLsbD 4, d := r.1.getLsbD 3,
                    i := r.1.getLsbD 2, z := r.1.getLsbD 1, c := r.1.getLsbD 0 }
       else
         { s.p with n := r.1.getLsbD 7, v := r.1.getLsbD 6, m := r.1.getLsbD 5, x := r.1.getLsbD 4,
                    d := r.1.getLsbD 3, i := r.1.getLsbD 2, z := r.1.getLsbD 1, c := r.1.getLsbD 0 } : Flags)
     let narrow := !s.p.e && r.1.getLsbD 4
     Instr.opcode .plp = 0x28#8 ∧ ∃ c, exec .plp s = .next
       { s with p := q, x := if narrow then zext16 (loByte s.x) else s.x, y := if narrow then zext16 (loByte s.y) else s.y,
                sp := r.2.sp, bus := r.2.bus, pc := s.pc + 1#16, cyc := c })

/-- R277 to R279, R281, R282: a register is pulled at its own width, and N and Z follow it. -/
def Obligations.PullsOfRegisters : Prop :=
  ∀ s : State,
    let rA := if s.m8 then (zext16 s.pull8.1, s.pull8.2) else s.pull16
    let rX := if s.x8 then (zext16 s.pull8.1, s.pull8.2) else s.pull16
    let r8 := s.pull8
    let r16 := s.pull16
    Instr.opcode .pla = 0x68#8 ∧ Instr.opcode .plx = 0xFA#8 ∧ Instr.opcode .ply = 0x7A#8 ∧
    Instr.opcode .plb = 0xAB#8 ∧ Instr.opcode .pld = 0x2B#8 ∧
    (∃ c, exec .pla s = .next { s with a := writeKeep s.wA rA.1 s.a, p := s.p.nz s.wA rA.1, sp := rA.2.sp,
                                       bus := rA.2.bus, pc := s.pc + 1#16, cyc := c }) ∧
    (∃ c, exec .plx s = .next { s with x := trunc s.wX rX.1, p := s.p.nz s.wX rX.1, sp := rX.2.sp,
                                       bus := rX.2.bus, pc := s.pc + 1#16, cyc := c }) ∧
    (∃ c, exec .ply s = .next { s with y := trunc s.wX rX.1, p := s.p.nz s.wX rX.1, sp := rX.2.sp,
                                       bus := rX.2.bus, pc := s.pc + 1#16, cyc := c }) ∧
    (∃ c, exec .plb s = .next { s with dbr := r8.1, p := s.p.nz .w8 (zext16 r8.1), sp := r8.2.sp,
                                       bus := r8.2.bus, pc := s.pc + 1#16, cyc := c }) ∧
    (∃ c, exec .pld s = .next { s with dp := r16.1, p := s.p.nz .w16 r16.1, sp := r16.2.sp,
                                       bus := r16.2.bus, pc := s.pc + 1#16, cyc := c })

/-- R283 to R285: PEA pushes its operand, PEI the word at a direct-page location, PER the next instruction's offset
plus its displacement; no flag changes. The direct-page location of PEI (R155, R141) is in bank 0, with D ignored and
no wrap inside page 0 in emulation mode and the sum modulo 2^16 in native mode: decision D18 (log 21). -/
def Obligations.PushesOfEffectiveValues : Prop :=
  ∀ (v r : Word) (d : Byte) (s : State),
    (∀ f ∈ ([⟨0xF4#8, .pea v, .pea v⟩] : List Form),
      let t := s.push16 v
      f.instr.opcode = f.op ∧ ∃ c, exec f.instr s = .next
        { s with sp := t.sp, bus := t.bus, pc := s.pc + 3#16, cyc := c }) ∧
    (∀ f ∈ ([⟨0xD4#8, .pei d, .pei d⟩] : List Form),
      let at0 : Word := if s.p.e then zext16 d else s.dp + zext16 d
      let m := memRead16 s.plat ⟨0x00#8, at0⟩ s.bus
      let t := State.push16 m.1 { s with bus := m.2 }
      f.instr.opcode = f.op ∧ ∃ c, exec f.instr s = .next
        { s with sp := t.sp, bus := t.bus, pc := s.pc + 2#16, cyc := c }) ∧
    (∀ f ∈ ([⟨0x62#8, .per r, .rel16 r⟩] : List Form),
      let t := s.push16 (BitVec.ofNat 16 (s.pc.toNat + 3 + r.toNat))
      f.instr.opcode = f.op ∧ ∃ c, exec f.instr s = .next
        { s with sp := t.sp, bus := t.bus, pc := s.pc + 3#16, cyc := c })

/-- R300 to R304, R306 to R309, R311, R312: a transfer has the width of its destination (R313); the transfers with D,
S or the whole accumulator have 16 bits; XBA exchanges the bytes of A with flags of the new low byte. -/
def Obligations.TransfersMoveRegisters : Prop :=
  ∀ s : State,
    let toX := fun (i : Instr) (v : Word) =>
      ∃ c, exec i s = .next { s with x := trunc s.wX v, p := s.p.nz s.wX v, pc := s.pc + 1#16, cyc := c }
    let toY := fun (i : Instr) (v : Word) =>
      ∃ c, exec i s = .next { s with y := trunc s.wX v, p := s.p.nz s.wX v, pc := s.pc + 1#16, cyc := c }
    let toA := fun (i : Instr) (v : Word) =>
      ∃ c, exec i s = .next { s with a := writeKeep s.wA v s.a, p := s.p.nz s.wA v, pc := s.pc + 1#16, cyc := c }
    let toC := fun (i : Instr) (v : Word) =>
      ∃ c, exec i s = .next { s with a := v, p := s.p.nz .w16 v, pc := s.pc + 1#16, cyc := c }
    [Instr.tax, .tay, .txa, .tya, .tsx, .txy, .tyx, .tcd, .tdc, .tsc, .xba].map Instr.opcode =
      [0xAA#8, 0xA8#8, 0x8A#8, 0x98#8, 0xBA#8, 0x9B#8, 0xBB#8, 0x5B#8, 0x7B#8, 0x3B#8, 0xEB#8] ∧
    toX .tax s.a ∧ toY .tay s.a ∧ toA .txa s.x ∧ toA .tya s.y ∧ toX .tsx s.sp ∧ toY .txy s.x ∧ toX .tyx s.y ∧
    (∃ c, exec .tcd s = .next { s with dp := s.a, p := s.p.nz .w16 s.a, pc := s.pc + 1#16, cyc := c }) ∧
    toC .tdc s.dp ∧ toC .tsc s.sp ∧
    (let v := joinBytes (loByte s.a) (hiByte s.a)
     ∃ c, exec .xba s = .next { s with a := v, p := s.p.nz .w8 v, pc := s.pc + 1#16, cyc := c })

/-- R305, R310: TXS and TCS write S and no flag; in emulation mode the high byte is 0x01 (decision D12). -/
def Obligations.TransfersToTheStackPointer : Prop :=
  ∀ s : State,
    let moved := fun (i : Instr) (v : Word) =>
      ∃ c, exec i s = .next
        { s with sp := if s.p.e then joinBytes 0x01#8 (loByte v) else v, pc := s.pc + 1#16, cyc := c }
    Instr.opcode .txs = 0x9A#8 ∧ Instr.opcode .tcs = 0x1B#8 ∧ moved .txs s.x ∧ moved .tcs s.a

/-- R320 to R326, R346: CLC, SEC, CLI, SEI, CLD, SED and CLV write their flag alone; NOP writes nothing. -/
def Obligations.SingleFlagInstructions : Prop :=
  ∀ s : State,
    let sets := fun (i : Instr) (p : Flags) => ∃ c, exec i s = .next { s with p := p, pc := s.pc + 1#16, cyc := c }
    [Instr.clc, .sec, .cli, .sei, .cld, .sed, .clv, .nop].map Instr.opcode =
      [0x18#8, 0x38#8, 0x58#8, 0x78#8, 0xD8#8, 0xF8#8, 0xB8#8, 0xEA#8] ∧
    sets .clc { s.p with c := false } ∧ sets .sec { s.p with c := true } ∧
    sets .cli { s.p with i := false } ∧ sets .sei { s.p with i := true } ∧
    sets .cld { s.p with d := false } ∧ sets .sed { s.p with d := true } ∧
    sets .clv { s.p with v := false } ∧ sets .nop s.p

/-- R327, R328, R45, R46: REP clears and SEP sets exactly the flags whose mask bit is 1; in emulation mode bits 5 and
4 do nothing (decision D15 for REP); setting X in native mode clears the index high bytes (decision D17). -/
def Obligations.RepAndSepWriteTheMaskedFlags : Prop :=
  ∀ (v : Byte) (s : State),
    let hit := fun (k : Nat) => v.getLsbD k
    let wide := fun (k : Nat) => !s.p.e && v.getLsbD k
    let keep := wide 4
    (∀ f ∈ ([⟨0xC2#8, .rep v, .imm8 v⟩] : List Form), f.instr.opcode = f.op ∧ ∃ c, exec f.instr s = .next
      { s with p := { s.p with n := s.p.n && !hit 7, v := s.p.v && !hit 6, m := s.p.m && !wide 5,
                               x := s.p.x && !wide 4, d := s.p.d && !hit 3, i := s.p.i && !hit 2,
                               z := s.p.z && !hit 1, c := s.p.c && !hit 0 }
               pc := s.pc + 2#16, cyc := c }) ∧
    (∀ f ∈ ([⟨0xE2#8, .sep v, .imm8 v⟩] : List Form), f.instr.opcode = f.op ∧ ∃ c, exec f.instr s = .next
      { s with p := { s.p with n := s.p.n || hit 7, v := s.p.v || hit 6, m := s.p.m || wide 5,
                               x := s.p.x || wide 4, d := s.p.d || hit 3, i := s.p.i || hit 2,
                               z := s.p.z || hit 1, c := s.p.c || hit 0 }
               x := if keep then zext16 (loByte s.x) else s.x, y := if keep then zext16 (loByte s.y) else s.y
               pc := s.pc + 2#16, cyc := c })

/-- R329, R94: C and E are exchanged; when E is then 1, M and X become 1, the index registers are masked to 8 bits and
S is re-homed (decisions D11, D16). -/
def Obligations.XceExchangesCarryAndEmulation : Prop :=
  ∀ s : State, Instr.opcode .xce = 0xFB#8 ∧
    (s.p.c = true → ∃ c, exec .xce s = .next
      { s with p := { s.p with e := true, c := s.p.e, m := true, x := true }, x := zext16 (loByte s.x),
               y := zext16 (loByte s.y), sp := joinBytes 0x01#8 (loByte s.sp), pc := s.pc + 1#16, cyc := c }) ∧
    (s.p.c = false → ∃ c, exec .xce s = .next
      { s with p := { s.p with e := false, c := s.p.e }, pc := s.pc + 1#16, cyc := c })

/-- R340 to R342, R411 to R414, R44: BRK and COP enter with the address after their signature byte as return address,
whatever I holds, B set in emulation mode (decisions D14, D27, D36; what the entry pushes and reads is
InterruptEntryFrame); RTI pulls the flags, the offset and, when the current mode is native, the bank. -/
def Obligations.SoftwareInterruptsAndReturn : Prop :=
  (∀ (sig : Byte) (s : State),
     (∀ f ∈ ([⟨0x00#8, .brk sig, .int sig⟩] : List Form),
       let t := s.enter .brk (s.pc + 2#16)
       f.instr.opcode = f.op ∧ ∃ c, exec f.instr s = .next
         { s with p := { s.p with i := true, d := false, b := s.p.e || s.p.b }, pbr := 0x00#8, pc := t.pc, sp := t.sp,
                  bus := t.bus, cyc := c }) ∧
     (∀ f ∈ ([⟨0x02#8, .cop sig, .int sig⟩] : List Form),
       let t := s.enter .cop (s.pc + 2#16)
       f.instr.opcode = f.op ∧ ∃ c, exec f.instr s = .next
         { s with p := { s.p with i := true, d := false, b := s.p.e || s.p.b }, pbr := 0x00#8, pc := t.pc, sp := t.sp,
                  bus := t.bus, cyc := c })) ∧
  (∀ s : State,
     let r := s.pull8
     let o := r.2.pull16
     let b := o.2.pull8
     let q := (if s.p.e then
         { s.p with n := r.1.getLsbD 7, v := r.1.getLsbD 6, b := r.1.getLsbD 4, d := r.1.getLsbD 3,
                    i := r.1.getLsbD 2, z := r.1.getLsbD 1, c := r.1.getLsbD 0 }
       else
         { s.p with n := r.1.getLsbD 7, v := r.1.getLsbD 6, m := r.1.getLsbD 5, x := r.1.getLsbD 4,
                    d := r.1.getLsbD 3, i := r.1.getLsbD 2, z := r.1.getLsbD 1, c := r.1.getLsbD 0 } : Flags)
     let narrow := !s.p.e && r.1.getLsbD 4
     Instr.opcode .rti = 0x40#8 ∧ ∃ c, exec .rti s = .next
       { s with p := q, x := if narrow then zext16 (loByte s.x) else s.x, y := if narrow then zext16 (loByte s.y) else s.y,
                pc := o.1, pbr := if s.p.e then s.pbr else b.1, sp := if s.p.e then o.2.sp else b.2.sp,
                bus := if s.p.e then o.2.bus else b.2.bus, cyc := c })

/-- R343 to R345: WAI and STP advance PC and change the run state; WDM is a two-byte no-operation (decisions D34, D35,
D41). -/
def Obligations.WaitStopAndReserved : Prop :=
  ∀ (v : Byte) (s : State), Instr.opcode .wai = 0xCB#8 ∧ Instr.opcode .stp = 0xDB#8 ∧
    (∃ c, exec .wai s = .next { s with pc := s.pc + 1#16, run := .waiting, cyc := c }) ∧
    (∃ c, exec .stp s = .next { s with pc := s.pc + 1#16, run := .stopped, cyc := c }) ∧
    (∀ f ∈ ([⟨0x42#8, .wdm v, .imm8Skip v⟩] : List Form), f.instr.opcode = f.op ∧ ∃ c, exec f.instr s = .next
      { s with pc := s.pc + 2#16, cyc := c })

/-- R360 to R362: MVN and MVP copy A + 1 bytes, one after another, from the source bank at X, X + 1, ... (X - 1, ...
for MVP) to the destination bank at Y, Y + 1, ..., the indexes wrapping at the index width; then A is 0xFFFF, X and Y
are one past the block, DBR is the destination bank (decision D25: the move is one step). -/
def Obligations.BlockMovesCopyTheBlock : Prop :=
  ∀ (dst src : Byte) (s : State),
    let count := s.a.toNat + 1
    let moved := fun (f : Form) (at' : Word → Nat → Word) =>
      let copy := fun (b : Bus) (k : Nat) =>
        let r := busRead8 s.plat ⟨src, at' s.x k⟩ b
        busWrite8 s.plat ⟨dst, at' s.y k⟩ r.1 r.2
      f.instr.opcode = f.op ∧ ∃ c, exec f.instr s = .next
        { s with a := 0xFFFF#16, x := at' s.x count, y := at' s.y count, dbr := dst,
                 bus := (List.range count).foldl copy s.bus, pc := s.pc + 3#16, cyc := c }
    (∀ f ∈ ([⟨0x54#8, .mvn dst src, .blk dst src⟩] : List Form),
      moved f (fun v k => trunc s.wX (v + BitVec.ofNat 16 k))) ∧
    (∀ f ∈ ([⟨0x44#8, .mvp dst src, .blk dst src⟩] : List Form),
      moved f (fun v k => trunc s.wX (v - BitVec.ofNat 16 k)))

/-- R470 to R473, R475, R476: an instruction adds CYCLES to CYC, the platform's parameter applied to the opcode, the
state before and its default; the default is 7 a byte for a block move, else the base of the opcode and one cycle for
a 16-bit operation, for a nonzero low byte of D in a direct-page mode, for an indexed read that crosses a page, and
for BRK, COP and RTI in native mode; for a short branch 2, one more when taken, and in emulation mode one more when it
then leaves the page of the next instruction. The base table and the choice of penalties are decision D44; the forms
that the parameter can take are log 12. -/
def Obligations.CyclesFollowTheTable : Prop :=
  (∀ (i : Instr) (s : State),
     let op := i.opcode.toNat
     let col := op % 32
     op ∉ [0x10, 0x30, 0x50, 0x70, 0x80, 0x90, 0xB0, 0xD0, 0xF0] →
     let accumulatorWide := s.m8 = false ∧ (col ∈ [1, 3, 5, 7, 9, 13, 15, 17, 18, 19, 21, 23, 25, 29, 31] ∨
       op ∈ [0x24, 0x2C, 0x34, 0x3C, 0x64, 0x74, 0x9C, 0x9E, 0x04, 0x0C, 0x14, 0x1C, 0x06, 0x0E, 0x16, 0x1E, 0x26, 0x2E,
             0x36, 0x3E, 0x46, 0x4E, 0x56, 0x5E, 0x66, 0x6E, 0x76, 0x7E, 0xC6, 0xCE, 0xD6, 0xDE, 0xE6, 0xEE, 0xF6, 0xFE,
             0x48, 0x68])
     let indexWide := s.x8 = false ∧ op ∈ [0xA2, 0xA6, 0xAE, 0xB6, 0xBE, 0xA0, 0xA4, 0xAC, 0xB4, 0xBC, 0x86, 0x8E, 0x96,
       0x84, 0x8C, 0x94, 0xE0, 0xE4, 0xEC, 0xC0, 0xC4, 0xCC, 0xDA, 0x5A, 0xFA, 0x7A]
     let directPage := loByte s.dp ≠ 0x00#8 ∧ i.mode.isDirectPage = true
     let pageCrossed := ((col ∈ [0x11, 0x19, 0x1D] ∧ op / 32 ≠ 4) ∨ op ∈ [0x3C, 0xBC, 0xBE]) ∧
       (resolve i.mode s).crossed = true
     let nativeFrame := s.p.e = false ∧ op ∈ [0x00, 0x02, 0x40]
     ∃ t, exec i s = .next t ∧ t.cyc = s.cyc + BitVec.ofNat 64 (s.cycles i.opcode
       (if op ∈ [0x44, 0x54] then 7 * (s.a.toNat + 1)
        else baseCycles i.opcode + (if accumulatorWide ∨ indexWide then 1 else 0) + (if directPage then 1 else 0) +
          (if pageCrossed then 1 else 0) + (if nativeFrame then 1 else 0)))) ∧
  (∀ (r : Byte) (s : State), ∀ f ∈
       ([⟨0x10#8, .bpl r, !s.p.n⟩, ⟨0x30#8, .bmi r, s.p.n⟩, ⟨0x50#8, .bvc r, !s.p.v⟩, ⟨0x70#8, .bvs r, s.p.v⟩,
        ⟨0x80#8, .bra r, true⟩, ⟨0x90#8, .bcc r, !s.p.c⟩, ⟨0xB0#8, .bcs r, s.p.c⟩, ⟨0xD0#8, .bne r, !s.p.z⟩,
        ⟨0xF0#8, .beq r, s.p.z⟩] : List BranchForm),
     let next := s.pc.toNat + 2
     let target := BitVec.ofInt 16 (next + r.toInt)
     let far := s.p.e && (target.toNat / 256 != next % 65536 / 256)
     ∀ t, exec f.instr s = .next t →
       t.cyc = s.cyc + BitVec.ofNat 64
         (s.cycles f.op (2 + (if f.taken then 1 else 0) + (if f.taken && far then 1 else 0)))) ∧
  (∀ (op : Byte) (n : Nat) (s : State),
     (s.plat.cycles = .standard → s.cycles op n = n) ∧
     (∀ k, s.plat.cycles = .other k → s.cycles op n = Config.cyclesOther k op s) ∧
     (∀ rows, s.plat.cycles = .table rows →
       let fits := fun (r : CycleRow) => r.op = op ∧ r.m8 = s.m8 ∧ r.x8 = s.x8 ∧ r.e = s.p.e ∧
         (r.dLowZero = true ↔ loByte s.dp = 0x00#8) ∧ r.standard = n
       ((∀ r ∈ rows, ¬ fits r) → s.cycles op n = n) ∧
       (∀ before r after, rows = before ++ r :: after → (∀ q ∈ before, ¬ fits q) → fits r → s.cycles op n = r.cycles)))

/-- R136 to R151, R156, as numbers: absolute in the data bank, indexed without bank wrap (R72; modulo 2^24 by decision
D9), direct page in bank 0 with D ignored in emulation mode (wrapping there by decision D18), stack relative in bank
0; the indirect modes read a two- or three-byte pointer in bank 0 and add Y without bank wrap (decision D20), said
here where no device answers at the pointer's bytes; the page predicate of the indexed modes. -/
def Obligations.EffectiveAddresses : Prop :=
  (∀ (d : Byte) (a : Word) (l : Addr) (s : State),
     let is := fun (m : Mode) (n : Nat) (crossed : Bool) =>
       (resolve m s).addr.asInteger = n ∧ (resolve m s).crossed = crossed ∧ (resolve m s).bus = s.bus
     let x := (trunc s.wX s.x).toNat
     let y := (trunc s.wX s.y).toNat
     let base := if s.p.e then d.toNat else s.dp.toNat + d.toNat
     let absolute := s.dbr.toNat * 65536 + a.toNat
     let crosses := fun (i : Nat) => decide (a.toNat / 256 ≠ (a.toNat + i) % 65536 / 256)
     is (.abs a) absolute false ∧ is (.absX a) ((absolute + x) % 16777216) (crosses x) ∧
     is (.absY a) ((absolute + y) % 16777216) (crosses y) ∧
     is (.absL l) (l.bank.toNat * 65536 + l.offset.toNat) false ∧
     is (.absLX l) ((l.bank.toNat * 65536 + l.offset.toNat + x) % 16777216) false ∧
     is (.dp d) (base % 65536) false ∧ is (.dpX d) ((base + x) % 65536) false ∧
     is (.dpY d) ((base + y) % 65536) false ∧ is (.sr d) ((s.sp.toNat + d.toNat) % 65536) false) ∧
  (∀ (d : Byte) (s : State),
     let y := (trunc s.wX s.y).toNat
     let at0 : Word := if s.p.e then zext16 d else s.dp + zext16 d
     let plain := fun (p : Addr) (k : Nat) => ∀ n, n < k → NoDevice s.plat (nextAddr s.plat p n)
     let is := fun (m : Mode) (n : Nat) (crossed : Bool) =>
       (resolve m s).addr.asInteger = n ∧ (resolve m s).crossed = crossed ∧ (resolve m s).bus = s.bus
     let data := fun (p : Word) => s.dbr.toNat * 65536 + p.toNat
     (plain ⟨0x00#8, at0⟩ 2 →
       let p := s.wordAt ⟨0x00#8, at0⟩
       is (.dpInd d) (data p) false ∧
       is (.dpIndY d) ((data p + y) % 16777216) (decide (p.toNat / 256 ≠ (p.toNat + y) % 65536 / 256))) ∧
     (plain ⟨0x00#8, at0 + trunc s.wX s.x⟩ 2 →
       is (.dpXInd d) (data (s.wordAt ⟨0x00#8, at0 + trunc s.wX s.x⟩)) false) ∧
     (plain ⟨0x00#8, at0⟩ 3 →
       let p := (s.longAt ⟨0x00#8, at0⟩).asInteger
       is (.dpIndL d) p false ∧ is (.dpIndLY d) ((p + y) % 16777216) false) ∧
     (plain ⟨0x00#8, s.sp + zext16 d⟩ 2 →
       is (.srIndY d) ((data (s.wordAt ⟨0x00#8, s.sp + zext16 d⟩) + y) % 16777216) false))

/-- R84, R88, R157: an immediate is its operand at the width; a memory operand is the byte, or the two bytes low
first, at the effective address, where no device answers. The address of the second byte is decision D2's. -/
def Obligations.LoadsReadLittleEndian : Prop :=
  ∀ (m : Mode) (v : Word) (w : Width) (s : State),
    load (.immM v) w s = { val := trunc w v, crossed := false, bus := s.bus } ∧
    load (.immX v) w s = { val := trunc w v, crossed := false, bus := s.bus } ∧
    (let e := resolve m s
     (∀ u, m ≠ .immM u) → (∀ u, m ≠ .immX u) → (∀ u, m ≠ .imm8 u) → (∀ a ∈ accessAddrs s.plat w e.addr, NoDevice s.plat a) →
     (load m w s).crossed = e.crossed ∧ (load m w s).bus = e.bus ∧
     (load m w s).val.toNat = (s.byteAt e.addr).toNat +
       (match w with
        | .w8 => 0
        | .w16 => 256 * (s.byteAt (nextAddr s.plat e.addr 1)).toNat))

/-- R84, R85, R88, R170, R173: what STA abs stores in memory LDA abs reads back. -/
def Obligations.LoadAfterStoreGivesTheRegister : Prop :=
  ∀ (a : Word) (s : State), s.MemInv → (∀ x ∈ accessAddrs s.plat s.wA ⟨s.dbr, a⟩, InRegion s.plat x) →
    ∃ t u, exec (.staAbs a) s = .next t ∧ exec (.ldaAbs a) t = .next u ∧ u.a = s.a

/-- R82, R83: a write goes to the flat regions first, else to the first device in registration order that claims the
address, else nowhere; a read the same, and an unclaimed read gives 0x00. Bounds are inclusive and regions come first
(decision D4), a device receives its local address (decision D5). One memory for all regions is the model's inference
(log 5); decode as windows (log 6) and the log of device accesses with the counter of free values (log 7) are the
model's choices. -/
def Obligations.BusDispatch : Prop :=
  ∀ (P : Platform) (a : Addr) (v : Byte) (b : Bus),
    let n := a.asInteger
    let mapped := ∃ d ∈ P.devices, ∃ r ∈ d.regions, r.first ≤ n ∧ n ≤ r.last
    let claims := fun (d : Device) (l : Nat) => decodeWindows d.windows n = some l
    (mapped → busWrite8 P a v b = { b with mem := Memory.write b.mem n v } ∧
      busRead8 P a b = (Memory.read b.mem n, b)) ∧
    (¬ mapped → ∀ (before after : List Device) (d : Device) (l : Nat), P.devices = before ++ d :: after →
      (∀ e ∈ before, ∀ k, ¬ claims e k) → claims d l →
      busWrite8 P a v b = { b with devLog := .write before.length l v :: b.devLog } ∧
      (busRead8 P a b).2 = { b with draws := b.draws + 1,
                                    devLog := .read before.length l (busRead8 P a b).1 :: b.devLog }) ∧
    (¬ mapped → (∀ d ∈ P.devices, ∀ k, ¬ claims d k) → busWrite8 P a v b = b ∧ busRead8 P a b = (0x00#8, b))

/-- R70 to R74, R76: an address is its 24-bit integer, both ways; the wrap-around addition, which is the default one,
changes the offset modulo 2^16 and never the bank; the no-wrap addition carries into the bank, modulo 2^24 (decision
D9), and agrees with it, for deltas of at most 255 banks, exactly when the sum does not leave the bank; the page test.
-/
def Obligations.AddressArithmetic : Prop :=
  ((∀ a : Addr, Addr.fromInteger a.asInteger = a) ∧
   (∀ n : Nat, n < 16777216 → (Addr.fromInteger n).asInteger = n) ∧
   (∀ a b : Addr, a = b ↔ a.asInteger = b.asInteger) ∧
   (∀ (a : Addr) (d : Int), (a.withOffsetWrap d).bank = a.bank ∧
     ((a.withOffsetWrap d).offset.toNat : Int) = (a.offset.toNat + d) % 65536 ∧ a.withOffset d = a.withOffsetWrap d) ∧
   (∀ o1 o2 : Word, differentPages o1 o2 = true ↔ o1.toNat / 256 ≠ o2.toNat / 256)) ∧
  (∀ (a : Addr) (d : Int),
     ((a.withOffsetNoWrap d).asInteger : Int) = (a.asInteger + d) % 16777216 ∧
     (-16711680 ≤ d → d ≤ 16711680 →
       (a.withOffsetNoWrap d = a.withOffsetWrap d ↔ 0 ≤ a.offset.toNat + d ∧ a.offset.toNat + d < 65536)))

/-- R190: the adder splits the integer sum into result and carry; adding the complement is subtraction, its carry out
telling that nothing was borrowed. -/
def Obligations.BinaryAdderAddsIntegers : Prop :=
  ∀ (w : Width) (a b : Word) (c : Bool), a.toNat < 2 ^ w.bits → b.toNat < 2 ^ w.bits →
    let s := addBin w a b c
    let d := addBin w a (complement w b) c
    s.1.toNat + 2 ^ w.bits * s.2.toNat = a.toNat + b.toNat + c.toNat ∧ s.1.toNat < 2 ^ w.bits ∧
    (d.1.toNat : Int) = ((a.toNat : Int) - b.toNat - (1 - c.toNat)) % 2 ^ w.bits ∧
    (d.2 = true ↔ b.toNat + 1 ≤ a.toNat + c.toNat)

/-- R191: the overflow bit, defined by the carries out of the two top bits, says that the signed sum leaves the range
of the width; the same in decimal mode (decision D22), since it is computed from the binary operands. -/
def Obligations.OverflowIsSignedRange : Prop :=
  ∀ (w : Width) (a b : Word) (c : Bool), a.toNat < 2 ^ w.bits → b.toNat < 2 ^ w.bits →
    let signed := fun (v : Word) => if v.toNat < 2 ^ (w.bits - 1) then (v.toNat : Int) else v.toNat - 2 ^ w.bits
    let sum := signed a + signed b + c.toNat
    (overflow w a b c = true ↔ sum < -(2 ^ (w.bits - 1)) ∨ 2 ^ (w.bits - 1) ≤ sum)

/-- R192 to R195: on operands whose digits are all 0 to 9 the decimal adder gives the decimal sum and carry, and the
decimal subtractor the decimal difference with borrow as carry 0, at 8 bits and 16 bits (subtraction with the default
two-limb DecSbc16, decision D24). Nothing is said of other digits (free values, decision D23). -/
def Obligations.DecimalArithmeticIsDecimal : Prop :=
  (∀ (n : Nat) (c : Bool),
     (∀ a b : Byte, isBcd a = true → isBcd b = true →
       let r := decAdd8 n a b c
       isBcd r.1 = true ∧ bcdValue8 r.1 + 100 * r.2.toNat = bcdValue8 a + bcdValue8 b + c.toNat) ∧
     (∀ a b : Word, isBcd (loByte a) = true → isBcd (hiByte a) = true → isBcd (loByte b) = true →
       isBcd (hiByte b) = true →
       let r := decAdd .w16 n a b c
       isBcd (loByte r.1) = true ∧ isBcd (hiByte r.1) = true ∧
         bcdValue16 r.1 + 10000 * r.2.toNat = bcdValue16 a + bcdValue16 b + c.toNat)) ∧
  (∀ (n : Nat) (c : Bool),
     (∀ a b : Byte, isBcd a = true → isBcd b = true →
       let r := decSub8 n a b c
       isBcd r.1 = true ∧ bcdValue8 r.1 + bcdValue8 b + 1 = bcdValue8 a + c.toNat + 100 * (!r.2).toNat) ∧
     (∀ a b : Word, isBcd (loByte a) = true → isBcd (hiByte a) = true → isBcd (loByte b) = true →
       isBcd (hiByte b) = true →
       let r := decSub .twoLimb .w16 n a b c
       isBcd (loByte r.1) = true ∧ isBcd (hiByte r.1) = true ∧
         bcdValue16 r.1 + bcdValue16 b + 1 = bcdValue16 a + c.toNat + 10000 * (!r.2).toNat))

/-- R42 to R44: the bit positions of the status byte in both modes, and decoding an encoded status gives it back (in
emulation mode too, M and X being out of the byte). Bit 5 in emulation mode is decision D13. -/
def Obligations.StatusByteRoundTrip : Prop :=
  ∀ (p : Flags) (v : Byte),
    p.decode p.encode = p ∧ (p.decode v).e = p.e ∧
    p.encode.getLsbD 7 = p.n ∧ p.encode.getLsbD 6 = p.v ∧ p.encode.getLsbD 5 = (p.e || p.m) ∧
    p.encode.getLsbD 4 = (if p.e then p.b else p.x) ∧ p.encode.getLsbD 3 = p.d ∧ p.encode.getLsbD 2 = p.i ∧
    p.encode.getLsbD 1 = p.z ∧ p.encode.getLsbD 0 = p.c

/-- R47, R50, R55, R451: the state after reset meets the invariants and is what the first step from power-on gives. It
rests on the model's choices: the values of the registers that reset keeps and of State.powerOn (log 1), quiet pins
(log 2), unwritten memory reading 0x00 (log 3), and the standard platform (log 4); I, the D flag, D and DBR after
reset are decision D38. -/
def Obligations.ResetStateIsLegal : Prop :=
  State.reset.MemInv ∧ State.reset.ModeInv ∧ State.reset.Ready ∧ step State.powerOn = .next State.reset ∧
    State.reset.p.e = true ∧ State.reset.p.m = true ∧ State.reset.p.x = true ∧ State.reset.p.i = true ∧
    State.reset.p.d = false ∧ State.reset.dp = 0x0000#16 ∧ State.reset.dbr = 0x00#8 ∧ State.reset.pbr = 0x00#8

/-- R47, R50: from every state that meets them, a step gives a state that meets them: in emulation mode M and X are 1,
the index high bytes are 0 and S stays in page 1 (with EMU_STACK_PAGE1); and while the index registers are 8 bits wide
their high bytes are 0. They hold at reset by ResetStateIsLegal. -/
def Obligations.StepKeepsModeInvariants : Prop :=
  ∀ s t : State, s.ModeInv → step s = .next t → t.ModeInv

/-- The form of memory (log 5): every step keeps memory sorted, without repeats, inside the 24-bit space and without
entries of the default byte, so that equal memories are equal data. -/
def Obligations.StepKeepsMemoryCanonical : Prop :=
  ∀ s t : State, s.MemInv → step s = .next t → t.MemInv

/-- R27 to R29, R39, R400, R420: which instructions can change E, D, DBR and PBR; no instruction changes a pin, a
latch or the platform, and only WAI and STP change the run state. -/
def Obligations.WritersOfTheModeAndBankRegisters : Prop :=
  ∀ (i : Instr) (s t : State), exec i s = .next t →
    let op := i.opcode.toNat
    (t.p.e ≠ s.p.e → op = 0xFB) ∧
    (t.dp ≠ s.dp → op ∈ [0x2B, 0x5B]) ∧
    (t.dbr ≠ s.dbr → op ∈ [0xAB, 0x44, 0x54]) ∧
    (t.pbr ≠ s.pbr → op ∈ [0x00, 0x02, 0x22, 0x40, 0x5C, 0x6B, 0xDC]) ∧
    (t.run ≠ s.run → op ∈ [0xCB, 0xDB]) ∧
    t.pins = s.pins ∧ t.plat = s.plat ∧ t.nmiPending = s.nmiPending ∧ t.abortPending = s.abortPending ∧
    t.resetPending = s.resetPending

/-- R32 to R38, R40, R41: which instructions can change each flag; N and Z by their complement, the instructions that
never write them. M and X never change in emulation mode but by XCE, B never in native mode. -/
def Obligations.WritersOfTheStatusFlags : Prop :=
  ∀ (i : Instr) (s t : State), exec i s = .next t →
    let op := i.opcode.toNat
    (t.p.c ≠ s.p.c → op ∈
      [0x06, 0x0A, 0x0E, 0x16, 0x18, 0x1E, 0x26, 0x28, 0x2A, 0x2E, 0x36, 0x38, 0x3E, 0x40, 0x46, 0x4A, 0x4E, 0x56,
       0x5E, 0x61, 0x63, 0x65, 0x66, 0x67, 0x69, 0x6A, 0x6D, 0x6E, 0x6F, 0x71, 0x72, 0x73, 0x75, 0x76, 0x77, 0x79,
       0x7D, 0x7E, 0x7F, 0xC0, 0xC1, 0xC2, 0xC3, 0xC4, 0xC5, 0xC7, 0xC9, 0xCC, 0xCD, 0xCF, 0xD1, 0xD2, 0xD3, 0xD5,
       0xD7, 0xD9, 0xDD, 0xDF, 0xE0, 0xE1, 0xE2, 0xE3, 0xE4, 0xE5, 0xE7, 0xE9, 0xEC, 0xED, 0xEF, 0xF1, 0xF2, 0xF3,
       0xF5, 0xF7, 0xF9, 0xFB, 0xFD, 0xFF]) ∧
    (t.p.v ≠ s.p.v → op ∈
      [0x24, 0x28, 0x2C, 0x34, 0x3C, 0x40, 0x61, 0x63, 0x65, 0x67, 0x69, 0x6D, 0x6F, 0x71, 0x72, 0x73, 0x75, 0x77,
       0x79, 0x7D, 0x7F, 0xB8, 0xC2, 0xE1, 0xE2, 0xE3, 0xE5, 0xE7, 0xE9, 0xED, 0xEF, 0xF1, 0xF2, 0xF3, 0xF5, 0xF7,
       0xF9, 0xFD, 0xFF]) ∧
    (t.p.i ≠ s.p.i → op ∈ [0x00, 0x02, 0x28, 0x40, 0x58, 0x78, 0xC2, 0xE2]) ∧
    (t.p.d ≠ s.p.d → op ∈ [0x00, 0x02, 0x28, 0x40, 0xC2, 0xD8, 0xE2, 0xF8]) ∧
    (t.p.b ≠ s.p.b → s.p.e = true ∧ op ∈ [0x00, 0x02, 0x08, 0x28, 0x40]) ∧
    (t.p.m ≠ s.p.m ∨ t.p.x ≠ s.p.x → op = 0xFB ∨ (s.p.e = false ∧ op ∈ [0x28, 0x40, 0xC2, 0xE2])) ∧
    (op ∈
      [0x00, 0x02, 0x04, 0x08, 0x0B, 0x0C, 0x10, 0x14, 0x18, 0x1B, 0x1C, 0x20, 0x22, 0x30, 0x38, 0x42, 0x44, 0x48,
       0x4B, 0x4C, 0x50, 0x54, 0x58, 0x5A, 0x5C, 0x60, 0x62, 0x64, 0x6B, 0x6C, 0x70, 0x74, 0x78, 0x7C, 0x80, 0x81,
       0x82, 0x83, 0x84, 0x85, 0x86, 0x87, 0x89, 0x8B, 0x8C, 0x8D, 0x8E, 0x8F, 0x90, 0x91, 0x92, 0x93, 0x94, 0x95,
       0x96, 0x97, 0x99, 0x9A, 0x9C, 0x9D, 0x9E, 0x9F, 0xB0, 0xB8, 0xCB, 0xD0, 0xD4, 0xD8, 0xDA, 0xDB, 0xDC, 0xEA,
       0xF0, 0xF4, 0xF8, 0xFB, 0xFC] →
      t.p.n = s.p.n) ∧
    (op ∈
      [0x00, 0x02, 0x08, 0x0B, 0x10, 0x18, 0x1B, 0x20, 0x22, 0x30, 0x38, 0x42, 0x44, 0x48, 0x4B, 0x4C, 0x50, 0x54,
       0x58, 0x5A, 0x5C, 0x60, 0x62, 0x64, 0x6B, 0x6C, 0x70, 0x74, 0x78, 0x7C, 0x80, 0x81, 0x82, 0x83, 0x84, 0x85,
       0x86, 0x87, 0x8B, 0x8C, 0x8D, 0x8E, 0x8F, 0x90, 0x91, 0x92, 0x93, 0x94, 0x95, 0x96, 0x97, 0x99, 0x9A, 0x9C,
       0x9D, 0x9E, 0x9F, 0xB0, 0xB8, 0xCB, 0xD0, 0xD4, 0xD8, 0xDA, 0xDB, 0xDC, 0xEA, 0xF0, 0xF4, 0xF8, 0xFB, 0xFC] →
      t.p.z = s.p.z)

/-- R96, R97, R157, R173 to R176, R101: an instruction that neither stores, modifies memory, pushes nor moves a block
leaves every byte of memory as it was; a store or a read-modify-write changes no byte but the one or two at its
effective address, by its width. -/
def Obligations.StoresChangeOnlyTheirOperand : Prop :=
  (∀ (i : Instr) (s t : State), exec i s = .next t → i.opcode.toNat ∉
       [0x00, 0x02, 0x04, 0x06, 0x08, 0x0B, 0x0C, 0x0E, 0x14, 0x16, 0x1C, 0x1E, 0x20, 0x22, 0x26, 0x2E, 0x36, 0x3E,
        0x44, 0x46, 0x48, 0x4B, 0x4E, 0x54, 0x56, 0x5A, 0x5E, 0x62, 0x64, 0x66, 0x6E, 0x74, 0x76, 0x7E, 0x81, 0x83,
        0x84, 0x85, 0x86, 0x87, 0x8B, 0x8C, 0x8D, 0x8E, 0x8F, 0x91, 0x92, 0x93, 0x94, 0x95, 0x96, 0x97, 0x99, 0x9C,
        0x9D, 0x9E, 0x9F, 0xC6, 0xCE, 0xD4, 0xD6, 0xDA, 0xDE, 0xE6, 0xEE, 0xF4, 0xF6, 0xFC, 0xFE] →
     ∀ n, Memory.read t.bus.mem n = Memory.read s.bus.mem n) ∧
  (∀ (i : Instr) (s t : State), exec i s = .next t →
     let op := i.opcode.toNat
     let outside := fun (w : Width) => ∀ n, (∀ x ∈ accessAddrs s.plat w (resolve i.mode s).addr, n ≠ x.asInteger) →
       Memory.read t.bus.mem n = Memory.read s.bus.mem n
     (op ∈
       [0x04, 0x06, 0x0C, 0x0E, 0x14, 0x16, 0x1C, 0x1E, 0x26, 0x2E, 0x36, 0x3E, 0x46, 0x4E, 0x56, 0x5E, 0x64, 0x66,
        0x6E, 0x74, 0x76, 0x7E, 0x81, 0x83, 0x85, 0x87, 0x8D, 0x8F, 0x91, 0x92, 0x93, 0x95, 0x97, 0x99, 0x9C, 0x9D,
        0x9E, 0x9F, 0xC6, 0xCE, 0xD6, 0xDE, 0xE6, 0xEE, 0xF6, 0xFE] →
       outside s.wA) ∧
     (op ∈ [0x84, 0x86, 0x8C, 0x8E, 0x94, 0x96] → outside s.wX))

/-- R90, R92, R93, R411, R362: a push, a call or a software interrupt changes no byte of memory but those at the next
one to four stack addresses; a block move none but its A + 1 destination bytes. -/
def Obligations.PushesAndMovesChangeOnlyTheirTarget : Prop :=
  (∀ (i : Instr) (s t : State), exec i s = .next t →
     let op := i.opcode.toNat
     let outside := fun (k : Nat) => ∀ n, (∀ x ∈ s.pushAddrs k, n ≠ x.asInteger) →
       Memory.read t.bus.mem n = Memory.read s.bus.mem n
     (op = 0x48 → outside s.wA.bytes) ∧ (op ∈ [0x5A, 0xDA] → outside s.wX.bytes) ∧
     (op ∈ [0x08, 0x4B, 0x8B] → outside 1) ∧
     (op ∈ [0x0B, 0x20, 0x62, 0xD4, 0xF4, 0xFC] → outside 2) ∧
     (op = 0x22 → outside 3) ∧ (op ∈ [0x00, 0x02] → outside (if s.p.e then 3 else 4))) ∧
  (∀ (dst src : Byte) (s t : State),
     let outside := fun (at' : Nat → Word) => ∀ n, (∀ k, k ≤ s.a.toNat → n ≠ (⟨dst, at' k⟩ : Addr).asInteger) →
       Memory.read t.bus.mem n = Memory.read s.bus.mem n
     (exec (.mvn dst src) s = .next t → outside (fun k => trunc s.wX (s.y + BitVec.ofNat 16 k))) ∧
     (exec (.mvp dst src) s = .next t → outside (fun k => trunc s.wX (s.y - BitVec.ofNat 16 k))))

/-- R60, R401, R53, R54: setting a pin changes that pin and, on a rising edge of RES, NMI or ABORT, its latch;
deasserting clears no latch; a host jump sets PBR and PC alone; a poke writes its register, or the flags, alone. The
latches follow decisions D29, D30. That a poke of the flags keeps the index high bytes, where it sets X in native mode
too, is the model's choice (log 22). -/
def Obligations.HostSetsPinsAndLatches : Prop :=
  ∀ (v : Bool) (a : Addr) (w : Word) (b : Byte) (n : BitVec 64) (p : Flags) (s : State),
    setPin .res v s = { s with pins := { s.pins with res := v }
                               resetPending := s.resetPending || (v && !s.pins.res) } ∧
    setPin .nmi v s = { s with pins := { s.pins with nmi := v }, nmiPending := s.nmiPending || (v && !s.pins.nmi) } ∧
    setPin .abort v s = { s with pins := { s.pins with abort := v }
                                 abortPending := s.abortPending || (v && !s.pins.abort) } ∧
    setPin .irq v s = { s with pins := { s.pins with irq := v } } ∧
    setPin .rdy v s = { s with pins := { s.pins with rdy := v } } ∧
    hostJump a s = { s with pbr := a.bank, pc := a.offset } ∧
    hostAct (.pokeA w) s = { s with a := w } ∧ hostAct (.pokeX w) s = { s with x := w } ∧
    hostAct (.pokeY w) s = { s with y := w } ∧ hostAct (.pokeS w) s = { s with sp := w } ∧
    hostAct (.pokeD w) s = { s with dp := w } ∧ hostAct (.pokeDBR b) s = { s with dbr := b } ∧
    hostAct (.pokePBR b) s = { s with pbr := b } ∧ hostAct (.pokePC w) s = { s with pc := w } ∧
    hostAct (.pokeCYC n) s = { s with cyc := n } ∧ hostAct (.pokeFlags p) s = { s with p := p }

end
end

