-- ==== Sys2Proof/Laws/Bits.lean ====
section
/-! SUPPORT. Laws of the bit-field helpers and of the Address arithmetic. -/

namespace Sys2Proof

@[simp] theorem loByte_joinBytes (h l : Byte) : loByte (joinBytes h l) = l := by
  apply BitVec.eq_of_toNat_eq; simp only [loByte, joinBytes, BitVec.toNat_setWidth, BitVec.toNat_append]
  have := l.isLt; rw [Nat.shiftLeft_eq, Nat.or_comm]
  rw [show l.toNat ||| h.toNat * 2 ^ 8 = h.toNat * 2 ^ 8 + l.toNat from by
    rw [Nat.or_comm, Nat.mul_comm, Nat.two_pow_add_eq_or_of_lt this]]
  omega

/-- `{h, l}` as a number. -/
theorem toNat_joinBytes (h l : Byte) : (joinBytes h l).toNat = 256 * h.toNat + l.toNat := by
  simp only [joinBytes, BitVec.toNat_append, Nat.shiftLeft_eq]
  rw [Nat.mul_comm, ← Nat.two_pow_add_eq_or_of_lt l.isLt]

theorem toNat_loByte (v : Word) : (loByte v).toNat = v.toNat % 256 := by
  simp [loByte, BitVec.toNat_setWidth]

theorem toNat_hiByte (v : Word) : (hiByte v).toNat = v.toNat / 256 := by
  have := v.isLt
  simp only [hiByte, BitVec.toNat_setWidth, BitVec.toNat_ushiftRight, Nat.shiftRight_eq_div_pow]
  omega

theorem toNat_zext16 (b : Byte) : (zext16 b).toNat = b.toNat := by
  have := b.isLt; simp only [zext16, BitVec.toNat_setWidth]; omega

@[simp] theorem hiByte_joinBytes (h l : Byte) : hiByte (joinBytes h l) = h := by
  apply BitVec.eq_of_toNat_eq; rw [toNat_hiByte, toNat_joinBytes]; have := l.isLt; omega

@[simp] theorem joinBytes_hi_lo (v : Word) : joinBytes (hiByte v) (loByte v) = v := by
  apply BitVec.eq_of_toNat_eq; rw [toNat_joinBytes, toNat_hiByte, toNat_loByte]; omega

@[simp] theorem loByte_zext16 (b : Byte) : loByte (zext16 b) = b := by
  apply BitVec.eq_of_toNat_eq; rw [toNat_loByte, toNat_zext16]; have := b.isLt; omega

@[simp] theorem hiByte_zext16 (b : Byte) : hiByte (zext16 b) = 0x00#8 := by
  apply BitVec.eq_of_toNat_eq; rw [toNat_hiByte, toNat_zext16]; have := b.isLt; simp; omega

theorem joinBytes_zero (b : Byte) : joinBytes 0x00#8 b = zext16 b := by
  apply BitVec.eq_of_toNat_eq; rw [toNat_joinBytes, toNat_zext16]; simp

/-- A word whose high byte is zero is its zero-extended low byte. -/
theorem zext16_loByte_of_hi_zero {v : Word} (h : hiByte v = 0x00#8) : zext16 (loByte v) = v := by
  rw [← joinBytes_zero, ← h, joinBytes_hi_lo]

@[simp] theorem trunc_w16 (v : Word) : trunc .w16 v = v := rfl

theorem trunc_w8 (v : Word) : trunc .w8 v = zext16 (loByte v) := rfl

@[simp] theorem hiByte_trunc_w8 (v : Word) : hiByte (trunc .w8 v) = 0x00#8 := by simp [trunc_w8]

@[simp] theorem loByte_trunc (w : Width) (v : Word) : loByte (trunc w v) = loByte v := by cases w <;> simp [trunc_w8]

@[simp] theorem trunc_trunc (w : Width) (v : Word) : trunc w (trunc w v) = trunc w v := by cases w <;> simp [trunc_w8]

/-- The value at a width as a number. -/
theorem toNat_trunc (w : Width) (v : Word) : (trunc w v).toNat = v.toNat % 2 ^ w.bits := by
  cases w
  · rw [trunc_w8, toNat_zext16, toNat_loByte]; rfl
  · exact (Nat.mod_eq_of_lt v.isLt).symm

theorem toNat_trunc_lt (w : Width) (v : Word) : (trunc w v).toNat < 2 ^ w.bits := by
  rw [toNat_trunc]; exact Nat.mod_lt _ (by cases w <;> decide)

@[simp] theorem loByte_writeKeep (w : Width) (v old : Word) : loByte (writeKeep w v old) = loByte v := by
  cases w <;> simp [writeKeep]

@[simp] theorem hiByte_writeKeep_w8 (v old : Word) : hiByte (writeKeep .w8 v old) = hiByte old := by simp [writeKeep]

/-- `getA` after `setA` at one width gives the value at that width (R24). -/
@[simp] theorem trunc_writeKeep (w : Width) (v old : Word) : trunc w (writeKeep w v old) = trunc w v := by
  cases w <;> simp [writeKeep, trunc_w8]

@[simp] theorem widthOf_true : widthOf true = .w8 := rfl
@[simp] theorem widthOf_false : widthOf false = .w16 := rfl

/-- Cutting to the width of a condition. -/
theorem trunc_widthOf (k : Bool) (v : Word) : trunc (widthOf k) v = if k then zext16 (loByte v) else v := by
  cases k <;> rfl

/-! ## Addresses -/

theorem Addr.asInteger_lt (a : Addr) : a.asInteger < 16777216 := by
  have h1 := a.bank.isLt; have h2 := a.offset.isLt; unfold Addr.asInteger; omega

/-- Two addresses with one integer are equal (R70). -/
theorem Addr.eq_of_asInteger {a b : Addr} (h : a.asInteger = b.asInteger) : a = b := by
  obtain ⟨ab, ao⟩ := a; obtain ⟨bb, bo⟩ := b
  have h1 := ao.isLt; have h2 := bo.isLt
  simp only [Addr.asInteger] at h
  have e1 : ab = bb := BitVec.eq_of_toNat_eq (by omega)
  have e2 : ao = bo := BitVec.eq_of_toNat_eq (by omega)
  rw [e1, e2]

theorem Addr.asInteger_ne {a b : Addr} (h : a ≠ b) : a.asInteger ≠ b.asInteger :=
  fun e => h (Addr.eq_of_asInteger e)

theorem Addr.asInteger_fromInteger {n : Nat} (h : n < 16777216) : (Addr.fromInteger n).asInteger = n := by
  simp only [Addr.fromInteger, Addr.asInteger, BitVec.toNat_ofNat]; omega

/-- The offset of a wrapped sum with a natural number. -/
theorem Addr.withOffsetWrap_nat (a : Addr) (k : Nat) : a.withOffsetWrap (k : Nat) = ⟨a.bank, a.offset + BitVec.ofNat 16 k⟩ := by
  simp only [Addr.withOffsetWrap, Addr.mk.injEq, true_and]
  apply BitVec.eq_of_toNat_eq
  rw [← Int.natCast_add, BitVec.ofInt_natCast]
  simp [BitVec.toNat_add]

theorem Addr.withOffset_nat (a : Addr) (k : Nat) : a.withOffset (k : Nat) = ⟨a.bank, a.offset + BitVec.ofNat 16 k⟩ :=
  a.withOffsetWrap_nat k

/-- The integer of an unwrapped sum with a natural number (R72). -/
theorem Addr.asInteger_withOffsetNoWrap_nat (a : Addr) (k : Nat) :
    (a.withOffsetNoWrap (k : Nat)).asInteger = (a.asInteger + k) % 16777216 := by
  rw [Addr.withOffsetNoWrap, Addr.asInteger_fromInteger] <;> omega

end Sys2Proof
end

