-- ==== Sys2Proof/Laws/Alu.lean ====
section
/-! SUPPORT. What each ALU primitive computes, in integers: the adder, the comparison, the counters, the shifts. -/

namespace Sys2Proof.Machine

theorem topBit_eq (w : Width) (v : Word) : topBit w v = decide (2 ^ (w.bits - 1) ≤ (trunc w v).toNat) := by
  have hv := v.isLt
  have ht := toNat_trunc w v
  cases w
  · rw [ht]
    simp only [topBit, BitVec.getLsbD, Nat.testBit_eq_decide_div_mod_eq]
    refine decide_eq_decide.mpr ?_
    simp only [Width.bits]; omega
  · rw [ht]
    simp only [topBit, BitVec.getLsbD, Nat.testBit_eq_decide_div_mod_eq]
    refine decide_eq_decide.mpr ?_
    simp only [Width.bits]; omega

theorem getLsbD_zero_eq (v : Word) : v.getLsbD 0 = decide (v.toNat % 2 = 1) := by
  simp only [BitVec.getLsbD, Nat.testBit_eq_decide_div_mod_eq, Nat.pow_zero, Nat.div_one]

/-- A word is its own value at a width when it is below the bound. -/
theorem trunc_of_lt {w : Width} {v : Word} (h : v.toNat < 2 ^ w.bits) : trunc w v = v := by
  apply BitVec.eq_of_toNat_eq; rw [toNat_trunc]; exact Nat.mod_eq_of_lt h

theorem two_pow_bits (w : Width) : 2 ^ w.bits = 256 ∨ 2 ^ w.bits = 65536 := by cases w <;> decide

theorem two_pow_bits_dvd (w : Width) : 2 ^ w.bits ∣ 65536 := by cases w <;> decide

theorem toNat_ofNat_of_lt {n : Nat} (h : n < 65536) : (BitVec.ofNat 16 n).toNat = n := by
  rw [BitVec.toNat_ofNat]; exact Nat.mod_eq_of_lt h

theorem addBin_fst_toNat (w : Width) (a b : Word) (c : Bool) :
    (addBin w a b c).1.toNat = (a.toNat + b.toNat + c.toNat) % 2 ^ w.bits := by
  unfold addBin; dsimp only
  rw [toNat_ofNat_of_lt]
  cases w <;> simp only [Width.bits] <;> omega

theorem addBin_snd (w : Width) (a b : Word) (c : Bool) :
    (addBin w a b c).2 = decide (2 ^ w.bits ≤ a.toNat + b.toNat + c.toNat) := rfl

theorem addBin_fst_lt (w : Width) (a b : Word) (c : Bool) : (addBin w a b c).1.toNat < 2 ^ w.bits := by
  rw [addBin_fst_toNat]; exact Nat.mod_lt _ (by cases w <;> decide)

theorem toNat_complement {w : Width} {b : Word} (h : b.toNat < 2 ^ w.bits) :
    (complement w b).toNat = 2 ^ w.bits - 1 - b.toNat := by
  unfold complement; rw [toNat_trunc, BitVec.toNat_not]
  cases w <;> simp only [Width.bits] at * <;> omega

/-- R213: a comparison sets C when the register is not less, Z when equal, N from the difference. -/
theorem Flags.compare_eq {w : Width} {r m : Word} (p : Flags) (hr : r.toNat < 2 ^ w.bits) (hm : m.toNat < 2 ^ w.bits) :
    p.compare w r m = { p with n := topBit w (r - m), z := r == m, c := decide (m.toNat ≤ r.toNat) } := by
  have hc := toNat_complement hm
  have hd : (addBin w r (complement w m) true).1 = trunc w (r - m) := by
    apply BitVec.eq_of_toNat_eq
    rw [addBin_fst_toNat, hc, toNat_trunc, BitVec.toNat_sub]
    have := r.isLt; have := m.isLt
    cases w <;> simp only [Width.bits, Bool.toNat_true] at * <;> omega
  have hb : (addBin w r (complement w m) true).2 = decide (m.toNat ≤ r.toNat) := by
    rw [addBin_snd, hc, decide_eq_decide]
    cases w <;> simp only [Width.bits, Bool.toNat_true] at * <;> omega
  have hz : (trunc w (r - m) == 0#16) = (r == m) := by
    rw [Bool.eq_iff_iff, beq_iff_eq, beq_iff_eq]
    constructor
    · intro h
      have := congrArg BitVec.toNat h
      rw [toNat_trunc, BitVec.toNat_sub, BitVec.toNat_ofNat] at this
      apply BitVec.eq_of_toNat_eq
      have := r.isLt; have := m.isLt
      cases w <;> simp only [Width.bits] at * <;> omega
    · rintro rfl; cases w
      · simp [trunc, loByte, zext16]
      · simp [trunc]
  have hn : topBit w (trunc w (r - m)) = topBit w (r - m) := by rw [topBit_eq, topBit_eq, trunc_trunc]
  unfold Flags.compare Flags.nz
  dsimp only
  rw [hd, hb, trunc_trunc, hz, hn]

/-- R205, R207: counting up modulo the width. -/
theorem increment_eq (w : Width) (v : Word) : increment w v = BitVec.ofNat 16 ((v.toNat + 1) % 2 ^ w.bits) := by
  apply BitVec.eq_of_toNat_eq
  unfold increment
  rw [toNat_trunc, BitVec.toNat_add, BitVec.toNat_ofNat, BitVec.toNat_ofNat]
  cases w
  · simp only [Width.bits]; omega
  · simp only [Width.bits, Nat.mod_mod, Nat.one_mod]

/-- R206, R209: counting down modulo the width. -/
theorem decrement_eq {w : Width} {v : Word} (h : v.toNat < 2 ^ w.bits) :
    decrement w v = BitVec.ofNat 16 ((v.toNat + 2 ^ w.bits - 1) % 2 ^ w.bits) := by
  apply BitVec.eq_of_toNat_eq
  unfold decrement
  rw [toNat_trunc, BitVec.toNat_sub, BitVec.toNat_ofNat, BitVec.toNat_ofNat]
  have := v.isLt
  cases w <;> simp only [Width.bits] at * <;> omega

/-- R230: ASL doubles. -/
theorem shiftLeft_eq (w : Width) (v : Word) : shiftLeft w v = BitVec.ofNat 16 (2 * v.toNat % 2 ^ w.bits) := by
  apply BitVec.eq_of_toNat_eq
  unfold shiftLeft
  rw [toNat_trunc, BitVec.toNat_shiftLeft, BitVec.toNat_ofNat, Nat.shiftLeft_eq]
  cases w <;> simp only [Width.bits] <;> omega

/-- R231: LSR halves. -/
theorem shiftRight_eq (v : Word) : shiftRight v = BitVec.ofNat 16 (v.toNat / 2) := by
  apply BitVec.eq_of_toNat_eq
  unfold shiftRight
  rw [BitVec.toNat_ushiftRight, BitVec.toNat_ofNat, Nat.shiftRight_eq_div_pow]
  have := v.isLt; omega

/-- R232: ROL doubles and adds the carry. -/
theorem rotateLeft_eq (w : Width) (c : Bool) (v : Word) :
    rotateLeft w c v = BitVec.ofNat 16 (2 * v.toNat % 2 ^ w.bits + c.toNat) := by
  have hor : (v <<< 1 ||| BitVec.ofNat 16 c.toNat).toNat = 2 * v.toNat % 65536 + c.toNat := by
    have hc : c.toNat < 2 ^ 1 := by cases c <;> decide
    rw [BitVec.toNat_or, BitVec.toNat_shiftLeft, BitVec.toNat_ofNat, Nat.shiftLeft_eq]
    rw [show v.toNat * 2 ^ 1 % 2 ^ 16 = 2 ^ 1 * (v.toNat % 32768) from by omega,
      show c.toNat % 2 ^ 16 = c.toNat from by omega, ← Nat.two_pow_add_eq_or_of_lt hc]
    omega
  apply BitVec.eq_of_toNat_eq
  unfold rotateLeft
  have hc : c.toNat < 2 := by cases c <;> decide
  rw [toNat_trunc, hor, BitVec.toNat_ofNat]
  cases w <;> simp only [Width.bits] <;> omega

/-- R233: ROR halves, the carry entering the top bit. -/
theorem rotateRight_eq {w : Width} {v : Word} (c : Bool) (h : v.toNat < 2 ^ w.bits) :
    rotateRight w c v = BitVec.ofNat 16 (v.toNat / 2 + c.toNat * (2 ^ w.bits / 2)) := by
  apply BitVec.eq_of_toNat_eq
  unfold rotateRight
  rw [BitVec.toNat_or, BitVec.toNat_ushiftRight, BitVec.toNat_shiftLeft, BitVec.toNat_ofNat, BitVec.toNat_ofNat,
    Nat.shiftRight_eq_div_pow, Nat.shiftLeft_eq, Nat.or_comm]
  have hlt : v.toNat / 2 ^ 1 < 2 ^ (w.bits - 1) := by cases w <;> simp only [Width.bits] at * <;> omega
  have hc : c.toNat < 2 := by cases c <;> decide
  rw [show c.toNat % 2 ^ 16 * 2 ^ (w.bits - 1) % 2 ^ 16 = 2 ^ (w.bits - 1) * c.toNat from by
      cases w <;> simp only [Width.bits] <;> omega,
    ← Nat.two_pow_add_eq_or_of_lt hlt]
  cases w <;> simp only [Width.bits] at * <;> omega

end Sys2Proof.Machine
end

