-- ==== Sys2Proof/Laws/Bus.lean ====
section
/-! SUPPORT. What each bus operation can do: a read never changes memory, a write changes one byte of it and keeps the
canonical form, and neither does anything else where no device answers. -/

namespace Sys2Proof.Machine

variable {P : Platform} {a : Addr} {b : Bus}

/-! ## One byte -/

/-- Everything a byte read can do (R82). -/
theorem busRead8_cases (P : Platform) (a : Addr) (b : Bus) :
    (busTarget P a = .region ∧ busRead8 P a b = (Memory.read b.mem a.asInteger, b)) ∨
    (∃ k l, busTarget P a = .device k l ∧ busRead8 P a b =
      (Config.deviceByte b.draws,
       { b with draws := b.draws + 1, devLog := .read k l (Config.deviceByte b.draws) :: b.devLog })) ∨
    (busTarget P a = .openBus ∧ busRead8 P a b = (0x00#8, b)) := by
  cases h : busTarget P a with
  | region => exact .inl ⟨rfl, by simp [busRead8, h]⟩
  | device k l => exact .inr (.inl ⟨k, l, rfl, by simp [busRead8, h]⟩)
  | openBus => exact .inr (.inr ⟨rfl, by simp [busRead8, h]⟩)

/-- Everything a byte write can do (R83). -/
theorem busWrite8_cases (P : Platform) (a : Addr) (v : Byte) (b : Bus) :
    (busTarget P a = .region ∧ busWrite8 P a v b = { b with mem := Memory.write b.mem a.asInteger v }) ∨
    (∃ k l, busTarget P a = .device k l ∧ busWrite8 P a v b = { b with devLog := .write k l v :: b.devLog }) ∨
    (busTarget P a = .openBus ∧ busWrite8 P a v b = b) := by
  cases h : busTarget P a with
  | region => exact .inl ⟨rfl, by simp [busWrite8, h]⟩
  | device k l => exact .inr (.inl ⟨k, l, rfl, by simp [busWrite8, h]⟩)
  | openBus => exact .inr (.inr ⟨rfl, by simp [busWrite8, h]⟩)

/-- A byte read leaves memory as it was. -/
@[simp] theorem busRead8_mem (P : Platform) (a : Addr) (b : Bus) : (busRead8 P a b).2.mem = b.mem := by
  rcases busRead8_cases P a b with ⟨_, h⟩ | ⟨k, l, _, h⟩ | ⟨_, h⟩ <;> rw [h]

/-- A byte write keeps memory canonical. -/
theorem busWrite8_wf (P : Platform) (a : Addr) (v : Byte) {b : Bus} (h : Memory.wf b.mem = true) :
    Memory.wf (busWrite8 P a v b).mem = true := by
  rcases busWrite8_cases P a v b with ⟨_, e⟩ | ⟨k, l, _, e⟩ | ⟨_, e⟩ <;> rw [e]
  · exact Memory.wf_write v h a.asInteger_lt
  · exact h
  · exact h

/-- A byte write leaves every byte of memory at another address as it was. -/
theorem busWrite8_other (P : Platform) (a : Addr) (v : Byte) (b : Bus) {n : Nat} (h : n ≠ a.asInteger) :
    Memory.read (busWrite8 P a v b).mem n = Memory.read b.mem n := by
  rcases busWrite8_cases P a v b with ⟨_, e⟩ | ⟨k, l, _, e⟩ | ⟨_, e⟩ <;> rw [e]
  exact Memory.read_write_other v h

/-- A byte written to a region is there. -/
theorem busWrite8_same (v : Byte) (hr : busTarget P a = .region) (h : Memory.wf b.mem = true) :
    Memory.read (busWrite8 P a v b).mem a.asInteger = v := by
  simp [busWrite8, hr, Memory.read_write_same v h]

/-- A byte read where no device answers: the byte of `byteAt`, and nothing changes. -/
theorem busRead8_noDevice (s : State) {a : Addr} {b : Bus} (hm : b.mem = s.bus.mem) (h : NoDevice s.plat a) :
    busRead8 s.plat a b = (s.byteAt a, b) := by
  unfold State.byteAt
  rcases busRead8_cases s.plat a b with ⟨t, e⟩ | ⟨k, l, t, e⟩ | ⟨t, e⟩
  · rw [e, t, hm]
  · simp [NoDevice, t, Target.isDevice] at h
  · rw [e, t]

theorem noDevice_of_region (h : busTarget P a = .region) : NoDevice P a := by simp [NoDevice, h, Target.isDevice]

/-! ## Multi-byte accesses -/

@[simp] theorem memRead16_mem (P : Platform) (a : Addr) (b : Bus) : (memRead16 P a b).2.mem = b.mem := by
  simp [memRead16]

@[simp] theorem memRead24_mem (P : Platform) (a : Addr) (b : Bus) : (memRead24 P a b).2.mem = b.mem := by
  simp [memRead24]

/-- A multi-byte read leaves memory as it was. -/
@[simp] theorem memRead_mem (P : Platform) (w : Width) (a : Addr) (b : Bus) : (memRead P w a b).2.mem = b.mem := by
  cases w <;> simp [memRead]

/-- A multi-byte write keeps memory canonical. -/
theorem memWrite_wf (P : Platform) (w : Width) (a : Addr) (v : Word) {b : Bus} (h : Memory.wf b.mem = true) :
    Memory.wf (memWrite P w a v b).mem = true := by
  cases w
  · exact busWrite8_wf P a _ h
  · exact busWrite8_wf P _ _ (busWrite8_wf P a _ h)

/-- A multi-byte write leaves every byte outside the access as it was. -/
theorem memWrite_other (P : Platform) (w : Width) (a : Addr) (v : Word) (b : Bus) {n : Nat}
    (h : ∀ x ∈ accessAddrs P w a, n ≠ x.asInteger) : Memory.read (memWrite P w a v b).mem n = Memory.read b.mem n := by
  cases w
  · exact busWrite8_other P a _ b (h a (by simp [accessAddrs]))
  · simp only [memWrite]
    rw [busWrite8_other P _ _ _ (h _ (by simp [accessAddrs])), busWrite8_other P a _ b (h a (by simp [accessAddrs]))]

/-- A 16-bit read where no device answers. -/
theorem memRead16_noDevice (s : State) {a : Addr} {b : Bus} (hm : b.mem = s.bus.mem) (h0 : NoDevice s.plat a)
    (h1 : NoDevice s.plat (nextAddr s.plat a 1)) : memRead16 s.plat a b = (s.wordAt a, b) := by
  simp [memRead16, busRead8_noDevice s hm h0, busRead8_noDevice s hm h1, State.wordAt]

/-- A 24-bit read where no device answers. -/
theorem memRead24_noDevice (s : State) {a : Addr} {b : Bus} (hm : b.mem = s.bus.mem) (h0 : NoDevice s.plat a)
    (h1 : NoDevice s.plat (nextAddr s.plat a 1)) (h2 : NoDevice s.plat (nextAddr s.plat a 2)) :
    memRead24 s.plat a b = (s.longAt a, b) := by
  simp [memRead24, busRead8_noDevice s hm h0, busRead8_noDevice s hm h1, busRead8_noDevice s hm h2, State.longAt,
    State.wordAt]

/-- The byte after an address is at another address. -/
theorem nextAddr_one_ne (P : Platform) (a : Addr) : nextAddr P a 1 ≠ a := by
  intro h
  have hlt := a.asInteger_lt
  have h2 := a.offset.isLt
  unfold nextAddr at h
  split at h
  · have := congrArg Addr.asInteger h
    rw [Addr.asInteger_withOffsetNoWrap_nat] at this; omega
  · rw [Addr.withOffset_nat] at h
    have := congrArg (fun x : Addr => x.offset.toNat) h
    simp only [BitVec.toNat_add, BitVec.toNat_ofNat] at this; omega

/-- R84, R85, R88: what a multi-byte write stores in regions, a multi-byte read gives back. -/
theorem memRead_memWrite (w : Width) (v : Word) (hw : Memory.wf b.mem = true)
    (hr : ∀ x ∈ accessAddrs P w a, busTarget P x = .region) :
    (memRead P w a (memWrite P w a v b)).1 = trunc w v := by
  cases w
  · have h0 := hr a (by simp [accessAddrs])
    simp [memRead, memWrite, busRead8, h0, busWrite8_same _ h0 hw, trunc_w8]
  · have h0 := hr a (by simp [accessAddrs])
    have h1 := hr (nextAddr P a 1) (by simp [accessAddrs])
    have hne := Addr.asInteger_ne (nextAddr_one_ne P a)
    simp only [memRead, memWrite, memRead16]
    rw [busRead8]; simp only [h0, busRead8, h1]
    rw [busWrite8_other _ _ _ _ hne.symm, busWrite8_same _ h0 hw, busWrite8_same _ h1 (busWrite8_wf P a _ hw)]
    simp

end Sys2Proof.Machine
end

