-- ==== Sys2Proof/Laws/BlockMove.lean ====
section
/-! SUPPORT. What `n` iterations of a block move's loop do: the registers as numbers and the bus as a fold. -/

namespace Sys2Proof.Machine

/-- The index register's value at byte `k` of a move that starts at `v` (R362). -/
def indexAt (up : Bool) (w : Width) (v : Word) (k : Nat) : Word :=
  trunc w (if up then v + BitVec.ofNat 16 k else v - BitVec.ofNat 16 k)

theorem indexAt_zero (up : Bool) (w : Width) (v : Word) : indexAt up w v 0 = trunc w v := by
  unfold indexAt; cases up <;> simp

/-- One step and then `k` bytes is `k + 1` bytes. -/
theorem indexAt_indexStep (up : Bool) (w : Width) (v : Word) (k : Nat) :
    indexAt up w (indexStep up w (trunc w v)) k = indexAt up w v (k + 1) := by
  unfold indexAt indexStep
  apply BitVec.eq_of_toNat_eq
  cases up <;> cases w <;> simp [toNat_trunc, Width.bits, BitVec.toNat_add, BitVec.toNat_sub] <;> omega

/-- The copy of byte `k` of a move (R362). -/
def copyByte (up : Bool) (dst src : Byte) (s : State) (b : Bus) (k : Nat) : Bus :=
  busWrite8 s.plat ⟨dst, indexAt up s.wX s.y k⟩ (busRead8 s.plat ⟨src, indexAt up s.wX s.x k⟩ b).1
    (busRead8 s.plat ⟨src, indexAt up s.wX s.x k⟩ b).2

/-- All that `n` iterations do to A. -/
theorem blockLoop_a (up : Bool) (dst src : Byte) (n : Nat) (s : State) :
    (blockLoop up dst src n s).a = s.a - BitVec.ofNat 16 n := by
  induction n generalizing s with
  | zero => simp [blockLoop]
  | succ n ih =>
    show (blockLoop up dst src n (blockByte up dst src s)).a = _
    rw [ih]
    show s.a - 1#16 - _ = _
    apply BitVec.eq_of_toNat_eq; simp only [BitVec.toNat_sub, BitVec.toNat_ofNat]; omega

/-- All that `n + 1` iterations do to the index registers. -/
theorem blockLoop_xy (up : Bool) (dst src : Byte) (n : Nat) (s : State) :
    (blockLoop up dst src (n + 1) s).x = indexAt up s.wX s.x (n + 1) ∧
      (blockLoop up dst src (n + 1) s).y = indexAt up s.wX s.y (n + 1) := by
  have hx : (blockByte up dst src s).x = indexStep up s.wX (trunc s.wX s.x) := rfl
  have hy : (blockByte up dst src s).y = indexStep up s.wX (trunc s.wX s.y) := rfl
  induction n generalizing s with
  | zero =>
    have h0 := indexAt_indexStep up s.wX s.x 0
    have h1 := indexAt_indexStep up s.wX s.y 0
    rw [indexAt_zero] at h0 h1
    refine ⟨?_, ?_⟩
    · show indexStep up s.wX (trunc s.wX s.x) = _
      rw [← h0]; unfold indexStep; rw [trunc_trunc]
    · show indexStep up s.wX (trunc s.wX s.y) = _
      rw [← h1]; unfold indexStep; rw [trunc_trunc]
  | succ n ih =>
    obtain ⟨a, b⟩ := ih (blockByte up dst src s) rfl rfl
    refine ⟨a.trans ?_, b.trans ?_⟩
    · rw [hx]; exact indexAt_indexStep up s.wX s.x (n + 1)
    · rw [hy]; exact indexAt_indexStep up s.wX s.y (n + 1)

/-- All that `n` iterations do to the bus. -/
theorem blockLoop_bus (up : Bool) (dst src : Byte) (n : Nat) (s : State) :
    (blockLoop up dst src n s).bus = (List.range n).foldl (copyByte up dst src s) s.bus := by
  induction n generalizing s with
  | zero => rfl
  | succ n ih =>
    show (blockLoop up dst src n (blockByte up dst src s)).bus = _
    rw [ih, List.range_succ_eq_map, List.foldl_cons, List.foldl_map]
    have hs : ∀ (b : Bus) (k : Nat), copyByte up dst src (blockByte up dst src s) b k = copyByte up dst src s b (k + 1) := by
      intro b k
      have hx := indexAt_indexStep up s.wX s.x k
      have hy := indexAt_indexStep up s.wX s.y k
      unfold copyByte
      rw [← hx, ← hy]
      rfl
    have h0 : (blockByte up dst src s).bus = copyByte up dst src s s.bus 0 := by
      unfold copyByte; rw [indexAt_zero, indexAt_zero]; rfl
    rw [h0]
    congr 1
    funext b k
    exact hs b k

/-- The copies keep memory canonical. -/
theorem copyBytes_wf (up : Bool) (dst src : Byte) (s : State) (l : List Nat) {b : Bus} (h : Memory.wf b.mem = true) :
    Memory.wf (l.foldl (copyByte up dst src s) b).mem = true := by
  induction l generalizing b with
  | nil => exact h
  | cons k l ih => exact ih (busWrite8_wf _ _ _ (by rw [busRead8_mem]; exact h))

/-- The copies change no byte but the destinations. -/
theorem copyBytes_other (up : Bool) (dst src : Byte) (s : State) (l : List Nat) (b : Bus) {n : Nat}
    (h : ∀ k ∈ l, n ≠ (⟨dst, indexAt up s.wX s.y k⟩ : Addr).asInteger) :
    Memory.read (l.foldl (copyByte up dst src s) b).mem n = Memory.read b.mem n := by
  induction l generalizing b with
  | nil => rfl
  | cons k l ih =>
    rw [List.foldl_cons, ih _ (fun j hj => h j (List.mem_cons_of_mem _ hj)), copyByte,
      busWrite8_other _ _ _ _ (h k (List.mem_cons_self ..)), busRead8_mem]

end Sys2Proof.Machine
end

