-- ==== Sys2Proof/Laws/Decode.lean ====
section
/-! SUPPORT. Laws of the opcode map, the lengths and the operand bytes, from which decoding and encoding follow. -/

namespace Sys2Proof

/-- The slot of the opcode map at a row and a column holds the instruction with that opcode (R117). -/
theorem opcode_slot (h l : Nat) (b1 b2 b3 : Byte) (hh : h < 16) (hl : l < 16) :
    ((opcodeRow h b1 b2 b3).getD l .nop).opcode = BitVec.ofNat 8 (16 * h + l) := by
  interval_cases h <;> interval_cases l <;> rfl

/-- R110: the instruction that an opcode byte selects has that opcode. -/
@[simp] theorem opcode_instrOf (op b1 b2 b3 : Byte) : (instrOf op b1 b2 b3).opcode = op := by
  have h := op.isLt
  rw [instrOf, opcode_slot _ _ _ _ _ (by omega) (by omega)]
  apply BitVec.eq_of_toNat_eq; simp only [BitVec.toNat_ofNat]; omega

/-- R112: the length of an instruction is that of its opcode. -/
theorem opcodeLen_opcode (m8 x8 : Bool) (i : Instr) : opcodeLen m8 x8 i.opcode = i.mode.len m8 x8 := by
  cases i <;> (simp only [opcodeLen, Instr.opcode, instrOf, BitVec.reduceToNat, Nat.reduceDiv, Nat.reduceMod]; rfl)

/-- R112: a length is 1 to 4. -/
theorem Mode.len_bounds (m8 x8 : Bool) (m : Mode) : 1 ≤ m.len m8 x8 ∧ m.len m8 x8 ≤ 4 := by
  cases m <;> cases m8 <;> cases x8 <;> simp [Mode.len]

/-- R111, R112: the operand bytes are the bytes after the opcode byte. -/
theorem Mode.operandBytes_length (m8 x8 : Bool) (m : Mode) : (m.operandBytes m8 x8).length + 1 = m.len m8 x8 := by
  cases m <;> cases m8 <;> cases x8 <;> rfl

/-- R110, R112: an encoding is the opcode byte and the operand bytes, by the instruction's length. -/
theorem encode_shape (i : Instr) (m8 x8 : Bool) :
    (encode m8 x8 i).head? = some i.opcode ∧ (encode m8 x8 i).length = i.len m8 x8 ∧ 1 ≤ i.len m8 x8 ∧
      i.len m8 x8 ≤ 4 :=
  ⟨rfl, i.mode.operandBytes_length m8 x8, i.mode.len_bounds m8 x8⟩

/-- Every word is two bytes. -/
theorem exists_joinBytes (v : Word) : ∃ h l, v = joinBytes h l := ⟨hiByte v, loByte v, (joinBytes_hi_lo v).symm⟩

/-- An instruction is rebuilt from its opcode and its operand bytes, an immediate at full width. -/
theorem instrOfBytes_wide (i : Instr) : instrOfBytes i.opcode (i.mode.operandBytes false false) = i := by
  cases i <;> first
    | (rename_i l; obtain ⟨k, o⟩ := l; obtain ⟨h, l, rfl⟩ := exists_joinBytes o
       simp only [instrOfBytes, Instr.opcode, Instr.mode, Mode.operandBytes, instrOf, BitVec.reduceToNat, Nat.reduceDiv,
         Nat.reduceMod, loByte_joinBytes, hiByte_joinBytes]
       rfl)
    | (rename_i a; obtain ⟨h, l, rfl⟩ := exists_joinBytes a
       simp only [instrOfBytes, Instr.opcode, Instr.mode, Mode.operandBytes, instrOf, BitVec.reduceToNat, Nat.reduceDiv,
         Nat.reduceMod, loByte_joinBytes, hiByte_joinBytes]
       rfl)
    | (simp only [instrOfBytes, Instr.opcode, Instr.mode, Mode.operandBytes, instrOf, BitVec.reduceToNat, Nat.reduceDiv,
         Nat.reduceMod]
       rfl)

/-- The operand bytes of a slot of the opcode map, at full width, are its operand (R111). -/
theorem operandBytes_slot (h l : Nat) (b1 b2 b3 : Byte) (hh : h < 16) (hl : l < 16) :
    let m := ((opcodeRow h b1 b2 b3).getD l .nop).mode
    m.operandBytes false false = [b1, b2, b3].take (m.len false false - 1) := by
  have two : [loByte (joinBytes b2 b1), hiByte (joinBytes b2 b1)] = [b1, b2] := by simp
  have three : [loByte (joinBytes b2 b1), hiByte (joinBytes b2 b1), b3] = [b1, b2, b3] := by simp
  interval_cases h <;> interval_cases l <;> first | rfl | exact two | exact three

/-- The operand bytes, at full width, of the instruction that an opcode byte selects. -/
theorem operandBytes_instrOf (op b1 b2 b3 : Byte) :
    (instrOf op b1 b2 b3).mode.operandBytes false false =
      [b1, b2, b3].take ((instrOf op b1 b2 b3).mode.len false false - 1) := by
  have := op.isLt
  exact operandBytes_slot _ _ _ _ _ (by omega) (by omega)

/-- At narrower widths the operand bytes are the first of the full ones. -/
theorem Mode.operandBytes_take (m8 x8 : Bool) (m : Mode) :
    m.operandBytes m8 x8 = (m.operandBytes false false).take (m.len m8 x8 - 1) := by
  cases m <;> cases m8 <;> cases x8 <;> rfl

theorem Mode.len_le (m8 x8 : Bool) (m : Mode) : m.len m8 x8 ≤ m.len false false := by
  cases m <;> cases m8 <;> cases x8 <;> simp [Mode.len]

/-- Which modes have an operand that may not fit its bytes: `WellFormed`, from the mode alone (R113). -/
def Mode.fits (m8 x8 : Bool) : Mode → Bool
  | .immM v => fitsImm m8 v
  | .immX v => fitsImm x8 v
  | .imp | .acc | .stk | .int _ | .imm8 _ | .imm8Skip _ | .rel8 _ | .rel16 _ | .blk _ _ | .pea _ | .pei _ | .dp _
  | .dpX _ | .dpY _ | .dpInd _ | .dpIndL _ | .dpXInd _ | .dpIndY _ | .dpIndLY _ | .sr _ | .srIndY _ | .abs _ | .absX _
  | .absY _ | .absInd _ | .absXInd _ | .absIndL _ | .absL _ | .absLX _ => true

theorem wellFormed_eq_fits (m8 x8 : Bool) (i : Instr) : WellFormed m8 x8 i = i.mode.fits m8 x8 := by cases i <;> rfl

/-- Where the operand fits, an operand byte left out is 0. -/
theorem Mode.operandBytes_getD {m8 x8 : Bool} {m : Mode} (h : m.fits m8 x8 = true) (k : Nat) :
    (m.operandBytes m8 x8).getD k 0#8 = (m.operandBytes false false).getD k 0#8 := by
  cases m <;> first
    | rfl
    | (cases m8
       · rfl
       · simp only [Mode.fits, fitsImm, Bool.not_true, Bool.false_or, beq_iff_eq] at h
         match k with
         | 0 => rfl
         | 1 => exact h.symm
         | _ + 2 => rfl)
    | (cases x8
       · rfl
       · simp only [Mode.fits, fitsImm, Bool.not_true, Bool.false_or, beq_iff_eq] at h
         match k with
         | 0 => rfl
         | 1 => exact h.symm
         | _ + 2 => rfl)

/-- An operand whose bytes beyond its length are 0 fits. -/
theorem Mode.fits_of_getD {m8 x8 : Bool} {m : Mode}
    (h : ∀ k, m.len m8 x8 - 1 ≤ k → (m.operandBytes false false).getD k 0#8 = 0#8) : m.fits m8 x8 = true := by
  cases m <;> first
    | rfl
    | (cases m8 <;> first
        | rfl
        | (have := h 1 (by simp [Mode.len]); simpa [Mode.fits, fitsImm, Mode.operandBytes] using this))
    | (cases x8 <;> first
        | rfl
        | (have := h 1 (by simp [Mode.len]); simpa [Mode.fits, fitsImm, Mode.operandBytes] using this))

/-- A well-formed instruction is rebuilt from its opcode and its operand bytes. -/
theorem instrOfBytes_operandBytes {m8 x8 : Bool} {i : Instr} (h : WellFormed m8 x8 i = true) :
    instrOfBytes i.opcode (i.mode.operandBytes m8 x8) = i := by
  rw [wellFormed_eq_fits] at h
  conv_rhs => rw [← instrOfBytes_wide i]
  simp only [instrOfBytes, Mode.operandBytes_getD h]

end Sys2Proof
end

