-- ==== Sys2Proof/Laws/Fetch.lean ====
section
/-! SUPPORT. What the boundary and the instruction fetch can do. -/

namespace Sys2Proof.Machine

/-- R402 to R406: all that can happen before the interrupt check. -/
theorem State.boundary_cases (s : State) :
    s.boundary = .done { s with run := .resetHeld } ∨ s.boundary = .done s.resetSequence ∨ s.boundary = .done s ∨
      s.boundary = State.interruptCheck { s with run := .running } := by
  unfold State.boundary
  split
  · exact .inl rfl
  split
  · exact .inr (.inl rfl)
  next h =>
  split
  · exact .inr (.inr (.inl rfl))
  next h' =>
  split
  · exact .inr (.inr (.inl rfl))
  split
  · split
    · exact .inr (.inr (.inr rfl))
    · exact .inr (.inr (.inl rfl))
  next h'' =>
    have hr : s.run = .running := by
      cases e : s.run with
      | resetHeld => exact absurd (.inl e) h
      | running => rfl
      | waiting => exact absurd e h''
      | stopped => exact absurd e h'
    have es : ({ s with run := .running } : State) = s := by rw [← hr]
    exact .inr (.inr (.inr (by rw [es])))

/-- R406, R410: all that the interrupt check can do. -/
theorem State.interruptCheck_cases (s : State) :
    s.interruptCheck = .done (State.interruptStep .abort { s with abortPending := false }) ∨
      s.interruptCheck = .done (State.interruptStep .nmi { s with nmiPending := false }) ∨
      s.interruptCheck = .done (State.interruptStep .irq s) ∨ s.interruptCheck = .execute s := by
  unfold State.interruptCheck
  split
  · exact .inl rfl
  split
  · exact .inr (.inl rfl)
  split
  · exact .inr (.inr (.inl rfl))
  · exact .inr (.inr (.inr rfl))

/-- A ready state executes (R406). -/
theorem State.boundary_ready {s : State} (h : s.Ready) : s.boundary = .execute s := by
  obtain ⟨h1, h2, h3, h4, h5, h6, h7⟩ := h
  have h8 : (s.pins.irq && !s.p.i) = false := by rcases h7 with h | h <;> simp [h]
  simp [State.boundary, h1, h2, h3, h4, State.interruptCheck, h5, h6, h8]

/-- R86: the address of code byte `k`. -/
theorem State.fetchAddr_eq (s : State) (k : Nat) : s.fetchAddr k = ⟨s.pbr, s.pc + BitVec.ofNat 16 k⟩ :=
  Addr.withOffset_nat _ k

/-- Where an operand does not span the end of a bank (or MULTIBYTE_CROSSES_BANK is off), the bytes of `FetchN(1, n)`
are the code bytes in order (decision D2). -/
theorem State.nextAddr_fetchAddr {s : State} {k : Nat} (hk : k < 3)
    (h : s.plat.multibyteCrossesBank = false ∨ s.pc.toNat + 3 < 65536) :
    nextAddr s.plat (s.fetchAddr 1) k = s.fetchAddr (1 + k) := by
  unfold nextAddr
  split
  · next hc =>
    have hp : s.pc.toNat + 3 < 65536 := by
      rcases h with h | h
      · rw [h] at hc; cases hc
      · exact h
    apply Addr.eq_of_asInteger
    rw [Addr.asInteger_withOffsetNoWrap_nat, State.fetchAddr_eq, State.fetchAddr_eq]
    have hb := s.pbr.isLt
    simp only [Addr.asInteger, BitVec.toNat_add, BitVec.toNat_ofNat]
    omega
  · rw [State.fetchAddr_eq, State.fetchAddr_eq, Addr.withOffset_nat]
    simp only [Addr.mk.injEq, true_and]
    apply BitVec.eq_of_toNat_eq; simp only [BitVec.toNat_add, BitVec.toNat_ofNat]; omega

/-- R86: the operand bytes where no device answers at the code bytes. -/
theorem State.fetchOperands_noDevice {s : State} (op : Byte) (hn : ∀ k, k < 4 → NoDevice s.plat (s.fetchAddr k))
    (hc : s.plat.multibyteCrossesBank = false ∨ s.pc.toNat + 3 < 65536) :
    s.fetchOperands op = (s.codeBytes.tail.take (opcodeBytesRead s.m8 s.x8 op), s.bus) := by
  have h1 := busRead8_noDevice s (b := s.bus) rfl (hn 1 (by omega))
  have h2 := busRead8_noDevice s (b := s.bus) rfl (hn 2 (by omega))
  have h3 := busRead8_noDevice s (b := s.bus) rfl (hn 3 (by omega))
  have e1 : nextAddr s.plat (s.fetchAddr 1) 1 = s.fetchAddr 2 := State.nextAddr_fetchAddr (by omega) hc
  have e2 : nextAddr s.plat (s.fetchAddr 1) 2 = s.fetchAddr 3 := State.nextAddr_fetchAddr (by omega) hc
  have hl : opcodeBytesRead s.m8 s.x8 op ≤ 3 := by
    have hb := Mode.len_bounds s.m8 s.x8 (instrOf op 0#8 0#8 0#8).mode
    unfold opcodeBytesRead Mode.bytesRead
    split <;> omega
  unfold State.fetchOperands
  dsimp only
  rw [e1, e2]
  generalize opcodeBytesRead s.m8 s.x8 op = n at hl ⊢
  cases (instrOf op 0#8 0#8 0#8).mode <;>
    (simp only [h1, h2, h3]
     match n, hl with
     | 0, _ => rfl
     | 1, _ => rfl
     | 2, _ => rfl
     | 3, _ => rfl)

/-- R86: where no device answers at the code bytes, a fetch gives the first of them and leaves the bus as it was. -/
theorem State.fetch_noDevice {s : State} (hn : ∀ k, k < 4 → NoDevice s.plat (s.fetchAddr k))
    (hc : s.plat.multibyteCrossesBank = false ∨ s.pc.toNat + 3 < 65536) :
    s.fetch = { op := s.byteAt s.programAddress
                bytes := s.codeBytes.tail.take (opcodeBytesRead s.m8 s.x8 (s.byteAt s.programAddress))
                bus := s.bus } := by
  have h0 : s.fetchOpcode = (s.byteAt s.programAddress, s.bus) := by
    refine busRead8_noDevice s rfl ?_
    have e : s.fetchAddr 0 = s.programAddress := by rw [State.fetchAddr_eq]; simp [State.programAddress]
    rw [← e]; exact hn 0 (by omega)
  unfold State.fetch
  rw [h0]
  dsimp only
  rw [show ({ s with bus := s.bus } : State) = s from rfl, State.fetchOperands_noDevice _ hn hc]

/-- R131, R345: the bytes that are skipped do not matter: what is fetched executes as what is decoded. -/
theorem exec_instrOfBytes_skipped (m8 x8 : Bool) (op : Byte) (bs : List Byte) (s : State) :
    exec (instrOfBytes op (bs.take (opcodeBytesRead m8 x8 op))) s =
      exec (instrOfBytes op (bs.take (opcodeLen m8 x8 op - 1))) s := by
  by_cases h : op = 0x00#8 ∨ op = 0x02#8 ∨ op = 0x42#8
  · rcases h with rfl | rfl | rfl <;> rfl
  · have e : opcodeBytesRead m8 x8 op = opcodeLen m8 x8 op - 1 := by
      unfold opcodeBytesRead opcodeLen Instr.len Mode.bytesRead
      split
      · next sig hm => exact absurd (by
          have h1 := opcode_instrOf op 0#8 0#8 0#8
          cases hi : instrOf op 0#8 0#8 0#8 <;> simp [hi, Instr.mode] at hm <;> simp [hi, Instr.opcode] at h1 <;>
            simp [← h1]) h
      · next v hm => exact absurd (by
          have h1 := opcode_instrOf op 0#8 0#8 0#8
          cases hi : instrOf op 0#8 0#8 0#8 <;> simp [hi, Instr.mode] at hm <;> simp [hi, Instr.opcode] at h1 <;>
            simp [← h1]) h
      · rfl
    rw [e]

end Sys2Proof.Machine
end

