-- ==== Sys2Proof/Laws/State.lean ====
section
/-! SUPPORT. One lemma per field and per named update of State, each true by unfolding, so that no later proof unfolds a
record update. -/

namespace Sys2Proof.Machine

/-! `setA` -/

@[simp] theorem State.setA_a (s : State) (w : Width) (v : Word) : (s.setA w v).a = writeKeep w v s.a := rfl
@[simp] theorem State.setA_x (s : State) (w : Width) (v : Word) : (s.setA w v).x = s.x := rfl
@[simp] theorem State.setA_y (s : State) (w : Width) (v : Word) : (s.setA w v).y = s.y := rfl
@[simp] theorem State.setA_sp (s : State) (w : Width) (v : Word) : (s.setA w v).sp = s.sp := rfl
@[simp] theorem State.setA_dp (s : State) (w : Width) (v : Word) : (s.setA w v).dp = s.dp := rfl
@[simp] theorem State.setA_dbr (s : State) (w : Width) (v : Word) : (s.setA w v).dbr = s.dbr := rfl
@[simp] theorem State.setA_pbr (s : State) (w : Width) (v : Word) : (s.setA w v).pbr = s.pbr := rfl
@[simp] theorem State.setA_pc (s : State) (w : Width) (v : Word) : (s.setA w v).pc = s.pc := rfl
@[simp] theorem State.setA_p (s : State) (w : Width) (v : Word) : (s.setA w v).p = s.p := rfl
@[simp] theorem State.setA_cyc (s : State) (w : Width) (v : Word) : (s.setA w v).cyc = s.cyc := rfl
@[simp] theorem State.setA_run (s : State) (w : Width) (v : Word) : (s.setA w v).run = s.run := rfl
@[simp] theorem State.setA_nmiPending (s : State) (w : Width) (v : Word) : (s.setA w v).nmiPending = s.nmiPending := rfl
@[simp] theorem State.setA_abortPending (s : State) (w : Width) (v : Word) : (s.setA w v).abortPending = s.abortPending := rfl
@[simp] theorem State.setA_resetPending (s : State) (w : Width) (v : Word) : (s.setA w v).resetPending = s.resetPending := rfl
@[simp] theorem State.setA_pins (s : State) (w : Width) (v : Word) : (s.setA w v).pins = s.pins := rfl
@[simp] theorem State.setA_bus (s : State) (w : Width) (v : Word) : (s.setA w v).bus = s.bus := rfl
@[simp] theorem State.setA_plat (s : State) (w : Width) (v : Word) : (s.setA w v).plat = s.plat := rfl

/-! `setX` -/

@[simp] theorem State.setX_a (s : State) (w : Width) (v : Word) : (s.setX w v).a = s.a := rfl
@[simp] theorem State.setX_x (s : State) (w : Width) (v : Word) : (s.setX w v).x = trunc w v := rfl
@[simp] theorem State.setX_y (s : State) (w : Width) (v : Word) : (s.setX w v).y = s.y := rfl
@[simp] theorem State.setX_sp (s : State) (w : Width) (v : Word) : (s.setX w v).sp = s.sp := rfl
@[simp] theorem State.setX_dp (s : State) (w : Width) (v : Word) : (s.setX w v).dp = s.dp := rfl
@[simp] theorem State.setX_dbr (s : State) (w : Width) (v : Word) : (s.setX w v).dbr = s.dbr := rfl
@[simp] theorem State.setX_pbr (s : State) (w : Width) (v : Word) : (s.setX w v).pbr = s.pbr := rfl
@[simp] theorem State.setX_pc (s : State) (w : Width) (v : Word) : (s.setX w v).pc = s.pc := rfl
@[simp] theorem State.setX_p (s : State) (w : Width) (v : Word) : (s.setX w v).p = s.p := rfl
@[simp] theorem State.setX_cyc (s : State) (w : Width) (v : Word) : (s.setX w v).cyc = s.cyc := rfl
@[simp] theorem State.setX_run (s : State) (w : Width) (v : Word) : (s.setX w v).run = s.run := rfl
@[simp] theorem State.setX_nmiPending (s : State) (w : Width) (v : Word) : (s.setX w v).nmiPending = s.nmiPending := rfl
@[simp] theorem State.setX_abortPending (s : State) (w : Width) (v : Word) : (s.setX w v).abortPending = s.abortPending := rfl
@[simp] theorem State.setX_resetPending (s : State) (w : Width) (v : Word) : (s.setX w v).resetPending = s.resetPending := rfl
@[simp] theorem State.setX_pins (s : State) (w : Width) (v : Word) : (s.setX w v).pins = s.pins := rfl
@[simp] theorem State.setX_bus (s : State) (w : Width) (v : Word) : (s.setX w v).bus = s.bus := rfl
@[simp] theorem State.setX_plat (s : State) (w : Width) (v : Word) : (s.setX w v).plat = s.plat := rfl

/-! `setY` -/

@[simp] theorem State.setY_a (s : State) (w : Width) (v : Word) : (s.setY w v).a = s.a := rfl
@[simp] theorem State.setY_x (s : State) (w : Width) (v : Word) : (s.setY w v).x = s.x := rfl
@[simp] theorem State.setY_y (s : State) (w : Width) (v : Word) : (s.setY w v).y = trunc w v := rfl
@[simp] theorem State.setY_sp (s : State) (w : Width) (v : Word) : (s.setY w v).sp = s.sp := rfl
@[simp] theorem State.setY_dp (s : State) (w : Width) (v : Word) : (s.setY w v).dp = s.dp := rfl
@[simp] theorem State.setY_dbr (s : State) (w : Width) (v : Word) : (s.setY w v).dbr = s.dbr := rfl
@[simp] theorem State.setY_pbr (s : State) (w : Width) (v : Word) : (s.setY w v).pbr = s.pbr := rfl
@[simp] theorem State.setY_pc (s : State) (w : Width) (v : Word) : (s.setY w v).pc = s.pc := rfl
@[simp] theorem State.setY_p (s : State) (w : Width) (v : Word) : (s.setY w v).p = s.p := rfl
@[simp] theorem State.setY_cyc (s : State) (w : Width) (v : Word) : (s.setY w v).cyc = s.cyc := rfl
@[simp] theorem State.setY_run (s : State) (w : Width) (v : Word) : (s.setY w v).run = s.run := rfl
@[simp] theorem State.setY_nmiPending (s : State) (w : Width) (v : Word) : (s.setY w v).nmiPending = s.nmiPending := rfl
@[simp] theorem State.setY_abortPending (s : State) (w : Width) (v : Word) : (s.setY w v).abortPending = s.abortPending := rfl
@[simp] theorem State.setY_resetPending (s : State) (w : Width) (v : Word) : (s.setY w v).resetPending = s.resetPending := rfl
@[simp] theorem State.setY_pins (s : State) (w : Width) (v : Word) : (s.setY w v).pins = s.pins := rfl
@[simp] theorem State.setY_bus (s : State) (w : Width) (v : Word) : (s.setY w v).bus = s.bus := rfl
@[simp] theorem State.setY_plat (s : State) (w : Width) (v : Word) : (s.setY w v).plat = s.plat := rfl

/-! `setNZ` -/

@[simp] theorem State.setNZ_a (s : State) (w : Width) (v : Word) : (s.setNZ w v).a = s.a := rfl
@[simp] theorem State.setNZ_x (s : State) (w : Width) (v : Word) : (s.setNZ w v).x = s.x := rfl
@[simp] theorem State.setNZ_y (s : State) (w : Width) (v : Word) : (s.setNZ w v).y = s.y := rfl
@[simp] theorem State.setNZ_sp (s : State) (w : Width) (v : Word) : (s.setNZ w v).sp = s.sp := rfl
@[simp] theorem State.setNZ_dp (s : State) (w : Width) (v : Word) : (s.setNZ w v).dp = s.dp := rfl
@[simp] theorem State.setNZ_dbr (s : State) (w : Width) (v : Word) : (s.setNZ w v).dbr = s.dbr := rfl
@[simp] theorem State.setNZ_pbr (s : State) (w : Width) (v : Word) : (s.setNZ w v).pbr = s.pbr := rfl
@[simp] theorem State.setNZ_pc (s : State) (w : Width) (v : Word) : (s.setNZ w v).pc = s.pc := rfl
@[simp] theorem State.setNZ_p (s : State) (w : Width) (v : Word) : (s.setNZ w v).p = s.p.nz w v := rfl
@[simp] theorem State.setNZ_cyc (s : State) (w : Width) (v : Word) : (s.setNZ w v).cyc = s.cyc := rfl
@[simp] theorem State.setNZ_run (s : State) (w : Width) (v : Word) : (s.setNZ w v).run = s.run := rfl
@[simp] theorem State.setNZ_nmiPending (s : State) (w : Width) (v : Word) : (s.setNZ w v).nmiPending = s.nmiPending := rfl
@[simp] theorem State.setNZ_abortPending (s : State) (w : Width) (v : Word) : (s.setNZ w v).abortPending = s.abortPending := rfl
@[simp] theorem State.setNZ_resetPending (s : State) (w : Width) (v : Word) : (s.setNZ w v).resetPending = s.resetPending := rfl
@[simp] theorem State.setNZ_pins (s : State) (w : Width) (v : Word) : (s.setNZ w v).pins = s.pins := rfl
@[simp] theorem State.setNZ_bus (s : State) (w : Width) (v : Word) : (s.setNZ w v).bus = s.bus := rfl
@[simp] theorem State.setNZ_plat (s : State) (w : Width) (v : Word) : (s.setNZ w v).plat = s.plat := rfl

/-! `setP` -/

@[simp] theorem State.setP_a (s : State) (q : Flags) (k : Bool) : (s.setP q k).a = s.a := rfl
@[simp] theorem State.setP_x (s : State) (q : Flags) (k : Bool) : (s.setP q k).x = trunc (widthOf k) s.x := rfl
@[simp] theorem State.setP_y (s : State) (q : Flags) (k : Bool) : (s.setP q k).y = trunc (widthOf k) s.y := rfl
@[simp] theorem State.setP_sp (s : State) (q : Flags) (k : Bool) : (s.setP q k).sp = s.sp := rfl
@[simp] theorem State.setP_dp (s : State) (q : Flags) (k : Bool) : (s.setP q k).dp = s.dp := rfl
@[simp] theorem State.setP_dbr (s : State) (q : Flags) (k : Bool) : (s.setP q k).dbr = s.dbr := rfl
@[simp] theorem State.setP_pbr (s : State) (q : Flags) (k : Bool) : (s.setP q k).pbr = s.pbr := rfl
@[simp] theorem State.setP_pc (s : State) (q : Flags) (k : Bool) : (s.setP q k).pc = s.pc := rfl
@[simp] theorem State.setP_p (s : State) (q : Flags) (k : Bool) : (s.setP q k).p = q := rfl
@[simp] theorem State.setP_cyc (s : State) (q : Flags) (k : Bool) : (s.setP q k).cyc = s.cyc := rfl
@[simp] theorem State.setP_run (s : State) (q : Flags) (k : Bool) : (s.setP q k).run = s.run := rfl
@[simp] theorem State.setP_nmiPending (s : State) (q : Flags) (k : Bool) : (s.setP q k).nmiPending = s.nmiPending := rfl
@[simp] theorem State.setP_abortPending (s : State) (q : Flags) (k : Bool) : (s.setP q k).abortPending = s.abortPending := rfl
@[simp] theorem State.setP_resetPending (s : State) (q : Flags) (k : Bool) : (s.setP q k).resetPending = s.resetPending := rfl
@[simp] theorem State.setP_pins (s : State) (q : Flags) (k : Bool) : (s.setP q k).pins = s.pins := rfl
@[simp] theorem State.setP_bus (s : State) (q : Flags) (k : Bool) : (s.setP q k).bus = s.bus := rfl
@[simp] theorem State.setP_plat (s : State) (q : Flags) (k : Bool) : (s.setP q k).plat = s.plat := rfl

/-! `finish` -/

@[simp] theorem State.finish_a (s : State) (n c : Nat) : (s.finish n c).a = s.a := rfl
@[simp] theorem State.finish_x (s : State) (n c : Nat) : (s.finish n c).x = s.x := rfl
@[simp] theorem State.finish_y (s : State) (n c : Nat) : (s.finish n c).y = s.y := rfl
@[simp] theorem State.finish_sp (s : State) (n c : Nat) : (s.finish n c).sp = s.sp := rfl
@[simp] theorem State.finish_dp (s : State) (n c : Nat) : (s.finish n c).dp = s.dp := rfl
@[simp] theorem State.finish_dbr (s : State) (n c : Nat) : (s.finish n c).dbr = s.dbr := rfl
@[simp] theorem State.finish_pbr (s : State) (n c : Nat) : (s.finish n c).pbr = s.pbr := rfl
@[simp] theorem State.finish_pc (s : State) (n c : Nat) : (s.finish n c).pc = s.pc + BitVec.ofNat 16 n := rfl
@[simp] theorem State.finish_p (s : State) (n c : Nat) : (s.finish n c).p = s.p := rfl
@[simp] theorem State.finish_cyc (s : State) (n c : Nat) : (s.finish n c).cyc = s.cyc + BitVec.ofNat 64 c := rfl
@[simp] theorem State.finish_run (s : State) (n c : Nat) : (s.finish n c).run = s.run := rfl
@[simp] theorem State.finish_nmiPending (s : State) (n c : Nat) : (s.finish n c).nmiPending = s.nmiPending := rfl
@[simp] theorem State.finish_abortPending (s : State) (n c : Nat) : (s.finish n c).abortPending = s.abortPending := rfl
@[simp] theorem State.finish_resetPending (s : State) (n c : Nat) : (s.finish n c).resetPending = s.resetPending := rfl
@[simp] theorem State.finish_pins (s : State) (n c : Nat) : (s.finish n c).pins = s.pins := rfl
@[simp] theorem State.finish_bus (s : State) (n c : Nat) : (s.finish n c).bus = s.bus := rfl
@[simp] theorem State.finish_plat (s : State) (n c : Nat) : (s.finish n c).plat = s.plat := rfl

/-! `jumpTo` -/

@[simp] theorem State.jumpTo_a (s : State) (t : Word) (c : Nat) : (s.jumpTo t c).a = s.a := rfl
@[simp] theorem State.jumpTo_x (s : State) (t : Word) (c : Nat) : (s.jumpTo t c).x = s.x := rfl
@[simp] theorem State.jumpTo_y (s : State) (t : Word) (c : Nat) : (s.jumpTo t c).y = s.y := rfl
@[simp] theorem State.jumpTo_sp (s : State) (t : Word) (c : Nat) : (s.jumpTo t c).sp = s.sp := rfl
@[simp] theorem State.jumpTo_dp (s : State) (t : Word) (c : Nat) : (s.jumpTo t c).dp = s.dp := rfl
@[simp] theorem State.jumpTo_dbr (s : State) (t : Word) (c : Nat) : (s.jumpTo t c).dbr = s.dbr := rfl
@[simp] theorem State.jumpTo_pbr (s : State) (t : Word) (c : Nat) : (s.jumpTo t c).pbr = s.pbr := rfl
@[simp] theorem State.jumpTo_pc (s : State) (t : Word) (c : Nat) : (s.jumpTo t c).pc = t := rfl
@[simp] theorem State.jumpTo_p (s : State) (t : Word) (c : Nat) : (s.jumpTo t c).p = s.p := rfl
@[simp] theorem State.jumpTo_cyc (s : State) (t : Word) (c : Nat) : (s.jumpTo t c).cyc = s.cyc + BitVec.ofNat 64 c := rfl
@[simp] theorem State.jumpTo_run (s : State) (t : Word) (c : Nat) : (s.jumpTo t c).run = s.run := rfl
@[simp] theorem State.jumpTo_nmiPending (s : State) (t : Word) (c : Nat) : (s.jumpTo t c).nmiPending = s.nmiPending := rfl
@[simp] theorem State.jumpTo_abortPending (s : State) (t : Word) (c : Nat) : (s.jumpTo t c).abortPending = s.abortPending := rfl
@[simp] theorem State.jumpTo_resetPending (s : State) (t : Word) (c : Nat) : (s.jumpTo t c).resetPending = s.resetPending := rfl
@[simp] theorem State.jumpTo_pins (s : State) (t : Word) (c : Nat) : (s.jumpTo t c).pins = s.pins := rfl
@[simp] theorem State.jumpTo_bus (s : State) (t : Word) (c : Nat) : (s.jumpTo t c).bus = s.bus := rfl
@[simp] theorem State.jumpTo_plat (s : State) (t : Word) (c : Nat) : (s.jumpTo t c).plat = s.plat := rfl

/-! `push8` -/

@[simp] theorem State.push8_a (s : State) (v : Byte) : (s.push8 v).a = s.a := rfl
@[simp] theorem State.push8_x (s : State) (v : Byte) : (s.push8 v).x = s.x := rfl
@[simp] theorem State.push8_y (s : State) (v : Byte) : (s.push8 v).y = s.y := rfl
@[simp] theorem State.push8_sp (s : State) (v : Byte) : (s.push8 v).sp = s.decS := rfl
@[simp] theorem State.push8_dp (s : State) (v : Byte) : (s.push8 v).dp = s.dp := rfl
@[simp] theorem State.push8_dbr (s : State) (v : Byte) : (s.push8 v).dbr = s.dbr := rfl
@[simp] theorem State.push8_pbr (s : State) (v : Byte) : (s.push8 v).pbr = s.pbr := rfl
@[simp] theorem State.push8_pc (s : State) (v : Byte) : (s.push8 v).pc = s.pc := rfl
@[simp] theorem State.push8_p (s : State) (v : Byte) : (s.push8 v).p = s.p := rfl
@[simp] theorem State.push8_cyc (s : State) (v : Byte) : (s.push8 v).cyc = s.cyc := rfl
@[simp] theorem State.push8_run (s : State) (v : Byte) : (s.push8 v).run = s.run := rfl
@[simp] theorem State.push8_nmiPending (s : State) (v : Byte) : (s.push8 v).nmiPending = s.nmiPending := rfl
@[simp] theorem State.push8_abortPending (s : State) (v : Byte) : (s.push8 v).abortPending = s.abortPending := rfl
@[simp] theorem State.push8_resetPending (s : State) (v : Byte) : (s.push8 v).resetPending = s.resetPending := rfl
@[simp] theorem State.push8_pins (s : State) (v : Byte) : (s.push8 v).pins = s.pins := rfl
@[simp] theorem State.push8_bus (s : State) (v : Byte) : (s.push8 v).bus = busWrite8 s.plat ⟨0x00#8, s.sp⟩ v s.bus := rfl
@[simp] theorem State.push8_plat (s : State) (v : Byte) : (s.push8 v).plat = s.plat := rfl

/-! `pull8` -/

@[simp] theorem State.pull8_a (s : State) : (s.pull8.2).a = s.a := rfl
@[simp] theorem State.pull8_x (s : State) : (s.pull8.2).x = s.x := rfl
@[simp] theorem State.pull8_y (s : State) : (s.pull8.2).y = s.y := rfl
@[simp] theorem State.pull8_sp (s : State) : (s.pull8.2).sp = s.incS := rfl
@[simp] theorem State.pull8_dp (s : State) : (s.pull8.2).dp = s.dp := rfl
@[simp] theorem State.pull8_dbr (s : State) : (s.pull8.2).dbr = s.dbr := rfl
@[simp] theorem State.pull8_pbr (s : State) : (s.pull8.2).pbr = s.pbr := rfl
@[simp] theorem State.pull8_pc (s : State) : (s.pull8.2).pc = s.pc := rfl
@[simp] theorem State.pull8_p (s : State) : (s.pull8.2).p = s.p := rfl
@[simp] theorem State.pull8_cyc (s : State) : (s.pull8.2).cyc = s.cyc := rfl
@[simp] theorem State.pull8_run (s : State) : (s.pull8.2).run = s.run := rfl
@[simp] theorem State.pull8_nmiPending (s : State) : (s.pull8.2).nmiPending = s.nmiPending := rfl
@[simp] theorem State.pull8_abortPending (s : State) : (s.pull8.2).abortPending = s.abortPending := rfl
@[simp] theorem State.pull8_resetPending (s : State) : (s.pull8.2).resetPending = s.resetPending := rfl
@[simp] theorem State.pull8_pins (s : State) : (s.pull8.2).pins = s.pins := rfl
@[simp] theorem State.pull8_bus (s : State) : (s.pull8.2).bus = (busRead8 s.plat ⟨0x00#8, s.incS⟩ s.bus).2 := rfl
@[simp] theorem State.pull8_plat (s : State) : (s.pull8.2).plat = s.plat := rfl

/-! `push16` -/

@[simp] theorem State.push16_a (s : State) (v : Word) : (s.push16 v).a = s.a := rfl
@[simp] theorem State.push16_x (s : State) (v : Word) : (s.push16 v).x = s.x := rfl
@[simp] theorem State.push16_y (s : State) (v : Word) : (s.push16 v).y = s.y := rfl
@[simp] theorem State.push16_dp (s : State) (v : Word) : (s.push16 v).dp = s.dp := rfl
@[simp] theorem State.push16_dbr (s : State) (v : Word) : (s.push16 v).dbr = s.dbr := rfl
@[simp] theorem State.push16_pbr (s : State) (v : Word) : (s.push16 v).pbr = s.pbr := rfl
@[simp] theorem State.push16_pc (s : State) (v : Word) : (s.push16 v).pc = s.pc := rfl
@[simp] theorem State.push16_p (s : State) (v : Word) : (s.push16 v).p = s.p := rfl
@[simp] theorem State.push16_cyc (s : State) (v : Word) : (s.push16 v).cyc = s.cyc := rfl
@[simp] theorem State.push16_run (s : State) (v : Word) : (s.push16 v).run = s.run := rfl
@[simp] theorem State.push16_nmiPending (s : State) (v : Word) : (s.push16 v).nmiPending = s.nmiPending := rfl
@[simp] theorem State.push16_abortPending (s : State) (v : Word) : (s.push16 v).abortPending = s.abortPending := rfl
@[simp] theorem State.push16_resetPending (s : State) (v : Word) : (s.push16 v).resetPending = s.resetPending := rfl
@[simp] theorem State.push16_pins (s : State) (v : Word) : (s.push16 v).pins = s.pins := rfl
@[simp] theorem State.push16_plat (s : State) (v : Word) : (s.push16 v).plat = s.plat := rfl

/-! `pull16` -/

@[simp] theorem State.pull16_a (s : State) : (s.pull16.2).a = s.a := rfl
@[simp] theorem State.pull16_x (s : State) : (s.pull16.2).x = s.x := rfl
@[simp] theorem State.pull16_y (s : State) : (s.pull16.2).y = s.y := rfl
@[simp] theorem State.pull16_dp (s : State) : (s.pull16.2).dp = s.dp := rfl
@[simp] theorem State.pull16_dbr (s : State) : (s.pull16.2).dbr = s.dbr := rfl
@[simp] theorem State.pull16_pbr (s : State) : (s.pull16.2).pbr = s.pbr := rfl
@[simp] theorem State.pull16_pc (s : State) : (s.pull16.2).pc = s.pc := rfl
@[simp] theorem State.pull16_p (s : State) : (s.pull16.2).p = s.p := rfl
@[simp] theorem State.pull16_cyc (s : State) : (s.pull16.2).cyc = s.cyc := rfl
@[simp] theorem State.pull16_run (s : State) : (s.pull16.2).run = s.run := rfl
@[simp] theorem State.pull16_nmiPending (s : State) : (s.pull16.2).nmiPending = s.nmiPending := rfl
@[simp] theorem State.pull16_abortPending (s : State) : (s.pull16.2).abortPending = s.abortPending := rfl
@[simp] theorem State.pull16_resetPending (s : State) : (s.pull16.2).resetPending = s.resetPending := rfl
@[simp] theorem State.pull16_pins (s : State) : (s.pull16.2).pins = s.pins := rfl
@[simp] theorem State.pull16_plat (s : State) : (s.pull16.2).plat = s.plat := rfl

/-! `push24` -/

@[simp] theorem State.push24_a (s : State) (k : Byte) (v : Word) : (s.push24 k v).a = s.a := rfl
@[simp] theorem State.push24_x (s : State) (k : Byte) (v : Word) : (s.push24 k v).x = s.x := rfl
@[simp] theorem State.push24_y (s : State) (k : Byte) (v : Word) : (s.push24 k v).y = s.y := rfl
@[simp] theorem State.push24_dp (s : State) (k : Byte) (v : Word) : (s.push24 k v).dp = s.dp := rfl
@[simp] theorem State.push24_dbr (s : State) (k : Byte) (v : Word) : (s.push24 k v).dbr = s.dbr := rfl
@[simp] theorem State.push24_pbr (s : State) (k : Byte) (v : Word) : (s.push24 k v).pbr = s.pbr := rfl
@[simp] theorem State.push24_pc (s : State) (k : Byte) (v : Word) : (s.push24 k v).pc = s.pc := rfl
@[simp] theorem State.push24_p (s : State) (k : Byte) (v : Word) : (s.push24 k v).p = s.p := rfl
@[simp] theorem State.push24_cyc (s : State) (k : Byte) (v : Word) : (s.push24 k v).cyc = s.cyc := rfl
@[simp] theorem State.push24_run (s : State) (k : Byte) (v : Word) : (s.push24 k v).run = s.run := rfl
@[simp] theorem State.push24_nmiPending (s : State) (k : Byte) (v : Word) : (s.push24 k v).nmiPending = s.nmiPending := rfl
@[simp] theorem State.push24_abortPending (s : State) (k : Byte) (v : Word) : (s.push24 k v).abortPending = s.abortPending := rfl
@[simp] theorem State.push24_resetPending (s : State) (k : Byte) (v : Word) : (s.push24 k v).resetPending = s.resetPending := rfl
@[simp] theorem State.push24_pins (s : State) (k : Byte) (v : Word) : (s.push24 k v).pins = s.pins := rfl
@[simp] theorem State.push24_plat (s : State) (k : Byte) (v : Word) : (s.push24 k v).plat = s.plat := rfl

/-! `pull24` -/

@[simp] theorem State.pull24_a (s : State) : (s.pull24.2).a = s.a := rfl
@[simp] theorem State.pull24_x (s : State) : (s.pull24.2).x = s.x := rfl
@[simp] theorem State.pull24_y (s : State) : (s.pull24.2).y = s.y := rfl
@[simp] theorem State.pull24_dp (s : State) : (s.pull24.2).dp = s.dp := rfl
@[simp] theorem State.pull24_dbr (s : State) : (s.pull24.2).dbr = s.dbr := rfl
@[simp] theorem State.pull24_pbr (s : State) : (s.pull24.2).pbr = s.pbr := rfl
@[simp] theorem State.pull24_pc (s : State) : (s.pull24.2).pc = s.pc := rfl
@[simp] theorem State.pull24_p (s : State) : (s.pull24.2).p = s.p := rfl
@[simp] theorem State.pull24_cyc (s : State) : (s.pull24.2).cyc = s.cyc := rfl
@[simp] theorem State.pull24_run (s : State) : (s.pull24.2).run = s.run := rfl
@[simp] theorem State.pull24_nmiPending (s : State) : (s.pull24.2).nmiPending = s.nmiPending := rfl
@[simp] theorem State.pull24_abortPending (s : State) : (s.pull24.2).abortPending = s.abortPending := rfl
@[simp] theorem State.pull24_resetPending (s : State) : (s.pull24.2).resetPending = s.resetPending := rfl
@[simp] theorem State.pull24_pins (s : State) : (s.pull24.2).pins = s.pins := rfl
@[simp] theorem State.pull24_plat (s : State) : (s.pull24.2).plat = s.plat := rfl

/-! Flags: `NZ` writes N and Z alone (R12). -/

@[simp] theorem Flags.nz_v (p : Flags) (w : Width) (v : Word) : (p.nz w v).v = p.v := rfl
@[simp] theorem Flags.nz_m (p : Flags) (w : Width) (v : Word) : (p.nz w v).m = p.m := rfl
@[simp] theorem Flags.nz_x (p : Flags) (w : Width) (v : Word) : (p.nz w v).x = p.x := rfl
@[simp] theorem Flags.nz_d (p : Flags) (w : Width) (v : Word) : (p.nz w v).d = p.d := rfl
@[simp] theorem Flags.nz_i (p : Flags) (w : Width) (v : Word) : (p.nz w v).i = p.i := rfl
@[simp] theorem Flags.nz_c (p : Flags) (w : Width) (v : Word) : (p.nz w v).c = p.c := rfl
@[simp] theorem Flags.nz_b (p : Flags) (w : Width) (v : Word) : (p.nz w v).b = p.b := rfl
@[simp] theorem Flags.nz_e (p : Flags) (w : Width) (v : Word) : (p.nz w v).e = p.e := rfl
@[simp] theorem Flags.nz_n (p : Flags) (w : Width) (v : Word) : (p.nz w v).n = topBit w v := rfl
@[simp] theorem Flags.nz_z (p : Flags) (w : Width) (v : Word) : (p.nz w v).z = (trunc w v == 0#16) := rfl
@[simp] theorem Flags.compare_v (p : Flags) (w : Width) (r m : Word) : (p.compare w r m).v = p.v := rfl
@[simp] theorem Flags.compare_m (p : Flags) (w : Width) (r m : Word) : (p.compare w r m).m = p.m := rfl
@[simp] theorem Flags.compare_x (p : Flags) (w : Width) (r m : Word) : (p.compare w r m).x = p.x := rfl
@[simp] theorem Flags.compare_d (p : Flags) (w : Width) (r m : Word) : (p.compare w r m).d = p.d := rfl
@[simp] theorem Flags.compare_i (p : Flags) (w : Width) (r m : Word) : (p.compare w r m).i = p.i := rfl
@[simp] theorem Flags.compare_b (p : Flags) (w : Width) (r m : Word) : (p.compare w r m).b = p.b := rfl
@[simp] theorem Flags.compare_e (p : Flags) (w : Width) (r m : Word) : (p.compare w r m).e = p.e := rfl

/-- R44: decoding never changes E. -/
@[simp] theorem Flags.decode_e (p : Flags) (v : Byte) : (p.decode v).e = p.e := by
  unfold Flags.decode; dsimp only; split <;> rfl

@[simp] theorem Flags.resetBits_e (p : Flags) (v : Byte) : (p.resetBits v).e = p.e := rfl
@[simp] theorem Flags.setBits_e (p : Flags) (v : Byte) : (p.setBits v).e = p.e := rfl

end Sys2Proof.Machine
end

