-- ==== Sys2Proof/Laws/Stack.lean ====
section
/-! SUPPORT. What the stack primitives, the status decoding, the interrupt entry and its return can do. -/

namespace Sys2Proof.Machine

/-! ## The stack pointer -/

theorem State.decS_congr {s t : State} (h : t.p.e = s.p.e) (hp : t.plat = s.plat) (hs : t.sp = s.sp) :
    t.decS = s.decS := by
  simp [State.decS, State.page1, h, hp, hs]

theorem State.incS_congr {s t : State} (h : t.p.e = s.p.e) (hp : t.plat = s.plat) (hs : t.sp = s.sp) :
    t.incS = s.incS := by
  simp [State.incS, State.page1, h, hp, hs]

/-- S stands in page 1 when the stack is confined to it: R47's clause. -/
abbrev State.PageInv (s : State) : Prop := s.page1 = true → hiByte s.sp = 0x01#8

theorem State.pageInv_of_emulationInv {s : State} (h : s.EmulationInv) : s.PageInv := by
  intro hp
  simp only [State.page1, Bool.and_eq_true] at hp
  exact (h hp.1).2.2.2.2 hp.2

/-- A decrement keeps S in page 1 (R90). -/
theorem State.pageInv_decS (s : State) : State.PageInv { s with sp := s.decS } := by
  intro h
  have h' : s.page1 = true := h
  simp [State.decS, h']

theorem State.pageInv_incS (s : State) : State.PageInv { s with sp := s.incS } := by
  intro h
  have h' : s.page1 = true := h
  simp [State.incS, h']

theorem State.decS_page1 {s : State} (h : s.page1 = true) : s.decS = joinBytes 0x01#8 (loByte s.sp - 1#8) := by
  simp [State.decS, h]

theorem State.decS_free {s : State} (h : s.page1 = false) : s.decS = s.sp - 1#16 := by simp [State.decS, h]

theorem State.incS_page1 {s : State} (h : s.page1 = true) : s.incS = joinBytes 0x01#8 (loByte s.sp + 1#8) := by
  simp [State.incS, h]

theorem State.incS_free {s : State} (h : s.page1 = false) : s.incS = s.sp + 1#16 := by simp [State.incS, h]

/-- Incrementing undoes decrementing (R90, R91). -/
theorem State.incS_decS {s : State} (h : s.PageInv) : State.incS { s with sp := s.decS } = s.sp := by
  cases hp : s.page1 with
  | true =>
    rw [State.incS_page1 (s := { s with sp := s.decS }) hp, State.decS_page1 hp]
    dsimp only
    rw [loByte_joinBytes, BitVec.sub_add_cancel, ← h hp, joinBytes_hi_lo]
  | false =>
    rw [State.incS_free (s := { s with sp := s.decS }) hp, State.decS_free hp]
    exact BitVec.sub_add_cancel _ _

/-! ## One byte -/

/-- R90: all that a push does. -/
theorem State.push8_eq (s : State) (v : Byte) :
    s.push8 v = { s with bus := busWrite8 s.plat ⟨0x00#8, s.sp⟩ v s.bus, sp := s.decS } := rfl

/-- R91: all that a pull does. -/
theorem State.pull8_eq (s : State) :
    s.pull8 = ((busRead8 s.plat ⟨0x00#8, s.incS⟩ s.bus).1,
      { s with bus := (busRead8 s.plat ⟨0x00#8, s.incS⟩ s.bus).2, sp := s.incS }) := rfl

/-- A pull leaves memory as it was. -/
@[simp] theorem State.pull8_mem (s : State) : s.pull8.2.bus.mem = s.bus.mem := busRead8_mem _ _ _

@[simp] theorem State.pull16_mem (s : State) : s.pull16.2.bus.mem = s.bus.mem := by simp [State.pull16]

@[simp] theorem State.pull24_mem (s : State) : s.pull24.2.bus.mem = s.bus.mem := by simp [State.pull24]

@[simp] theorem State.pullW_mem (s : State) (w : Width) : (s.pullW w).2.bus.mem = s.bus.mem := by
  cases w <;> simp [State.pullW]

theorem State.push8_memInv {s : State} (v : Byte) (h : s.MemInv) : (s.push8 v).MemInv := busWrite8_wf _ _ v h

theorem State.push16_memInv {s : State} (v : Word) (h : s.MemInv) : (s.push16 v).MemInv :=
  State.push8_memInv _ (State.push8_memInv _ h)

theorem State.push24_memInv {s : State} (k : Byte) (v : Word) (h : s.MemInv) : (s.push24 k v).MemInv :=
  State.push16_memInv _ (State.push8_memInv _ h)

theorem State.pushW_memInv {s : State} (w : Width) (v : Word) (h : s.MemInv) : (s.pushW w v).MemInv := by
  cases w
  · exact State.push8_memInv _ h
  · exact State.push16_memInv _ h

/-- A push changes no byte but the one at `$00:S`. -/
theorem State.push8_other (s : State) (v : Byte) {n : Nat} (h : n ≠ (⟨0x00#8, s.sp⟩ : Addr).asInteger) :
    Memory.read (s.push8 v).bus.mem n = Memory.read s.bus.mem n := busWrite8_other _ _ v _ h

/-- What is pulled right after a push is what was pushed, if the byte is memory. -/
theorem State.pull8_push8 {s : State} (v : Byte) (hm : s.MemInv) (hp : s.PageInv)
    (hr : InRegion s.plat ⟨0x00#8, s.sp⟩) : (s.push8 v).pull8 = (v, { s.push8 v with sp := s.sp }) := by
  have hi : (s.push8 v).incS = s.sp := by
    rw [← State.incS_decS hp]; exact State.incS_congr rfl rfl rfl
  have hw := busWrite8_same v hr hm
  rw [State.pull8_eq, hi, busRead8]
  simp only [State.push8_plat]
  rw [hr]
  simp only [State.push8_bus, hw]

/-! ## The bytes that pushes write -/

theorem State.spAfter_zero (s : State) : s.spAfter 0 = s.sp := rfl
theorem State.spAfter_one (s : State) : s.spAfter 1 = s.decS := State.decS_congr rfl rfl rfl

/-- S after `k` bytes more than one push. -/
theorem State.spAfter_push8 (s : State) (v : Byte) (k : Nat) : (s.push8 v).spAfter k = s.spAfter (k + 1) := by
  induction k with
  | zero => exact (State.spAfter_one s).symm
  | succ k ih =>
    show State.decS _ = State.decS _
    exact State.decS_congr rfl rfl ih

/-- Inside page 1 the low byte of S counts down. -/
theorem State.spAfter_page1 {s : State} (h : s.page1 = true) (hp : s.PageInv) (k : Nat) :
    s.spAfter k = joinBytes 0x01#8 (loByte s.sp - BitVec.ofNat 8 k) := by
  induction k with
  | zero => rw [← hp h]; simp [State.spAfter_zero]
  | succ k ih =>
    show State.decS { s with sp := s.spAfter k } = _
    rw [State.decS_page1 (s := { s with sp := s.spAfter k }) h]
    dsimp only
    rw [ih, loByte_joinBytes]
    congr 1
    apply BitVec.eq_of_toNat_eq
    simp only [BitVec.toNat_sub, BitVec.toNat_ofNat]; omega

/-- Elsewhere S counts down modulo 2^16. -/
theorem State.spAfter_free {s : State} (h : s.page1 = false) (k : Nat) : s.spAfter k = s.sp - BitVec.ofNat 16 k := by
  induction k with
  | zero => simp [State.spAfter_zero]
  | succ k ih =>
    show State.decS { s with sp := s.spAfter k } = _
    rw [State.decS_free (s := { s with sp := s.spAfter k }) h]
    dsimp only
    rw [ih]
    apply BitVec.eq_of_toNat_eq
    simp only [BitVec.toNat_sub, BitVec.toNat_ofNat]; omega

/-- Fewer than 257 pushes write distinct addresses. -/
theorem State.spAfter_ne {s : State} (hp : s.PageInv) {i j : Nat} (hij : i < j) (hj : j < 256) :
    s.spAfter i ≠ s.spAfter j := by
  intro e
  cases h : s.page1 with
  | true =>
    rw [State.spAfter_page1 h hp, State.spAfter_page1 h hp] at e
    have := congrArg (fun w : Word => (loByte w).toNat) e
    simp only [loByte_joinBytes, BitVec.toNat_sub, BitVec.toNat_ofNat] at this; omega
  | false =>
    rw [State.spAfter_free h, State.spAfter_free h] at e
    have := congrArg BitVec.toNat e
    simp only [BitVec.toNat_sub, BitVec.toNat_ofNat] at this; omega

theorem State.pageInv_spAfter {s : State} (hp : s.PageInv) (k : Nat) : State.PageInv { s with sp := s.spAfter k } := by
  cases k with
  | zero => exact hp
  | succ k => exact State.pageInv_decS { s with sp := s.spAfter k }

/-- S after one to four pushes, as the pushes leave it. -/
theorem State.sp_push1 (s : State) (v : Byte) : (s.push8 v).sp = s.spAfter 1 := (State.spAfter_one s).symm

theorem State.sp_push2 (s : State) (u v : Byte) : ((s.push8 u).push8 v).sp = s.spAfter 2 := by
  rw [State.sp_push1, State.spAfter_push8]

theorem State.sp_push3 (s : State) (u v w : Byte) : (((s.push8 u).push8 v).push8 w).sp = s.spAfter 3 := by
  rw [State.sp_push2, State.spAfter_push8]

theorem State.sp_push4 (s : State) (u v w z : Byte) : ((((s.push8 u).push8 v).push8 w).push8 z).sp = s.spAfter 4 := by
  rw [State.sp_push3, State.spAfter_push8]

/-- The byte just pushed is at the address it was pushed to, if that is memory. -/
theorem State.push8_same {s : State} (v : Byte) (hm : s.MemInv) (hr : InRegion s.plat ⟨0x00#8, s.sp⟩) :
    Memory.read (s.push8 v).bus.mem (⟨0x00#8, s.sp⟩ : Addr).asInteger = v :=
  busWrite8_same _ hr hm

/-- Two pushed bytes change no byte but those at the next two stack addresses. -/
theorem State.push16_other (s : State) (v : Word) {n : Nat} (h : ∀ k, k < 2 → n ≠ (⟨0x00#8, s.spAfter k⟩ : Addr).asInteger) :
    Memory.read (s.push16 v).bus.mem n = Memory.read s.bus.mem n := by
  unfold State.push16
  rw [State.push8_other _ _ (by rw [State.sp_push1]; exact h 1 (by omega)), State.push8_other _ _ (h 0 (by omega))]

/-- The stack addresses depend on S, the mode and the platform alone. -/
theorem State.spAfter_congr {s u : State} (hs : u.sp = s.sp) (he : u.p.e = s.p.e) (hp : u.plat = s.plat) (k : Nat) :
    u.spAfter k = s.spAfter k := by
  induction k with
  | zero => exact hs
  | succ k ih => exact State.decS_congr he hp ih

/-- A pull after `k + 1` pushes moves S to where the last of them wrote. -/
theorem State.incS_spAfter {s t : State} (hp : s.PageInv) (he : t.p.e = s.p.e) (hpl : t.plat = s.plat) {k : Nat}
    (hs : t.sp = s.spAfter (k + 1)) : t.incS = s.spAfter k := by
  have hc : t.incS = State.incS { s with sp := State.decS { s with sp := s.spAfter k } } :=
    State.incS_congr he hpl hs
  exact hc.trans (State.incS_decS (State.pageInv_spAfter hp k))

theorem State.mem_pushAddrs {s : State} {k j : Nat} (h : j < k) : (⟨0x00#8, s.spAfter j⟩ : Addr) ∈ s.pushAddrs k :=
  List.mem_map.mpr ⟨j, List.mem_range.mpr h, rfl⟩

/-- A pull of a byte of memory. -/
theorem State.pull8_at {t : State} {a : Word} {v : Byte} (hi : t.incS = a) (hr : InRegion t.plat ⟨0x00#8, a⟩)
    (hm : Memory.read t.bus.mem (⟨0x00#8, a⟩ : Addr).asInteger = v) : t.pull8 = (v, { t with sp := a }) := by
  have hr' : busTarget t.plat ⟨0x00#8, a⟩ = .region := hr
  rw [State.pull8_eq, hi, busRead8, hr']
  simp only [hm]

/-- The addresses of two pushes are two addresses of memory. -/
theorem State.stackAddr_ne {s : State} (hp : s.PageInv) {i j : Nat} (hij : i < j) (hj : j < 256) :
    (⟨0x00#8, s.spAfter i⟩ : Addr).asInteger ≠ (⟨0x00#8, s.spAfter j⟩ : Addr).asInteger :=
  Addr.asInteger_ne (fun e => State.spAfter_ne hp hij hj (congrArg Addr.offset e))

/-! ## The status byte -/

/-- R44, R50: all that decoding a status byte does. -/
theorem State.decodeP_eq (s : State) (v : Byte) :
    s.decodeP v = { s with p := s.p.decode v
                           x := if !s.p.e && v.getLsbD 4 then zext16 (loByte s.x) else s.x
                           y := if !s.p.e && v.getLsbD 4 then zext16 (loByte s.y) else s.y } := by
  have h : (!(s.p.decode v).e && (s.p.decode v).x) = (!s.p.e && v.getLsbD 4) := by
    cases he : s.p.e <;> simp [Flags.decode, he]
  simp only [State.decodeP, State.setP, h, trunc_widthOf]

/-! ## Interrupt entry and return -/

/-- R411: the flags when the entry pushes them. -/
def Flags.entering (k : Cause) (p : Flags) : Flags := if p.e then { p with b := k.breakBit } else p

/-- R411: all that the pushes of an entry do. -/
theorem State.enterPushes_eq (s : State) (k : Cause) (ret : Word) :
    s.enterPushes k ret =
      { ((if s.p.e then s else s.push8 s.pbr).push16 ret).push8 (s.p.entering k).encode with p := s.p.entering k } := by
  unfold State.enterPushes Flags.entering
  cases he : s.p.e <;> simp [he, State.push8_eq, State.decS, State.page1]

/-- R411: all that an entry does, over its pushes. -/
theorem State.enter_eq (s : State) (k : Cause) (ret : Word) :
    s.enter k ret =
      { s with
        p := { s.p.entering k with i := true, d := false }, pbr := 0x00#8, sp := (s.enterPushes k ret).sp
        pc := (memRead16 s.plat ⟨0x00#8, vectorOffset s.plat k s.p.e⟩ (s.enterPushes k ret).bus).1
        bus := (memRead16 s.plat ⟨0x00#8, vectorOffset s.plat k s.p.e⟩ (s.enterPushes k ret).bus).2 } := by
  have he : (s.p.entering k).e = s.p.e := by unfold Flags.entering; split <;> rfl
  unfold State.enter
  rw [State.enterPushes_eq]
  cases h : s.p.e <;> simp [h, he]

/-- An entry changes memory by its pushes alone. -/
theorem State.enter_mem (s : State) (k : Cause) (ret : Word) :
    (s.enter k ret).bus.mem =
      (((if s.p.e then s else s.push8 s.pbr).push16 ret).push8 (s.p.entering k).encode).bus.mem := by
  rw [State.enter_eq]
  dsimp only
  rw [memRead16_mem, State.enterPushes_eq]

/-- An entry keeps memory canonical. -/
theorem State.enter_memInv {s : State} (h : s.MemInv) (k : Cause) (ret : Word) : (s.enter k ret).MemInv := by
  unfold State.MemInv
  rw [State.enter_mem]
  refine State.push8_memInv _ (State.push16_memInv _ ?_)
  split
  · exact h
  · exact State.push8_memInv _ h

end Sys2Proof.Machine
end

