-- ==== Sys2Proof/Laws/Modes.lean ====
section
/-! SUPPORT. What keeps the invariants of R47 and R50, said once for the fields they speak of. -/

namespace Sys2Proof.Machine

/-- R47, R50: an update that keeps E, M, X and the platform keeps the invariants, if X and Y are kept or cut to their
width and S is kept or put into page 1 wherever the stack is confined to it. -/
theorem State.modeInv_of {s t : State} (h : s.ModeInv) (he : t.p.e = s.p.e) (hm : t.p.m = s.p.m) (hx : t.p.x = s.p.x)
    (hp : t.plat = s.plat) (hX : t.x = s.x ∨ ∃ v, t.x = trunc s.wX v) (hY : t.y = s.y ∨ ∃ v, t.y = trunc s.wX v)
    (hS : t.sp = s.sp ∨ (s.page1 = true → hiByte t.sp = 0x01#8)) : t.ModeInv := by
  have ix : s.x8 = true → hiByte t.x = 0x00#8 := by
    intro h8
    rcases hX with e | ⟨v, e⟩ <;> rw [e]
    · exact (h.2 h8).1
    · rw [State.wX, h8]; exact hiByte_trunc_w8 v
  have iy : s.x8 = true → hiByte t.y = 0x00#8 := by
    intro h8
    rcases hY with e | ⟨v, e⟩ <;> rw [e]
    · exact (h.2 h8).2
    · rw [State.wX, h8]; exact hiByte_trunc_w8 v
  have e8 : t.x8 = s.x8 := by simp [State.x8, Flags.x8, he, hx]
  refine ⟨fun e => ?_, fun e => ?_⟩
  · rw [he] at e
    have h8 : s.x8 = true := by simp [State.x8, Flags.x8, e]
    obtain ⟨h1, h2, _, _, h5⟩ := h.1 e
    refine ⟨hm.trans h1, hx.trans h2, ix h8, iy h8, fun k => ?_⟩
    rw [hp] at k
    rcases hS with e' | e'
    · rw [e']; exact h5 k
    · exact e' (by simp [State.page1, e, k])
  · rw [e8] at e
    exact ⟨ix e, iy e⟩

/-- R44, R46, R50: new flags keep the invariants if E stays, M and X stay in emulation mode, and the index registers
are cut wherever X becomes 1 in native mode. -/
theorem State.setP_modeInv {s : State} (h : s.ModeInv) (q : Flags) (k : Bool) (he : q.e = s.p.e)
    (hm : s.p.e = true → q.m = s.p.m ∧ q.x = s.p.x) (hk : s.p.e = false → q.x = true → s.p.x = false → k = true) :
    State.ModeInv (s.setP q k) := by
  have cut : ∀ v : Word, hiByte v = 0x00#8 → hiByte (trunc (widthOf k) v) = 0x00#8 := by
    intro v hv; cases k
    · exact hv
    · exact hiByte_trunc_w8 v
  have ix : (q.e || q.x) = true → hiByte (trunc (widthOf k) s.x) = 0x00#8 ∧ hiByte (trunc (widthOf k) s.y) = 0x00#8 := by
    intro hq
    cases hE : s.p.e with
    | true => exact ⟨cut _ (h.1 hE).2.2.1, cut _ (h.1 hE).2.2.2.1⟩
    | false =>
      rw [he, hE] at hq
      cases hX : s.p.x with
      | true =>
        have := h.2 (by simp [State.x8, Flags.x8, hX])
        exact ⟨cut _ this.1, cut _ this.2⟩
      | false =>
        rw [hk hE (by simpa using hq) hX]; exact ⟨hiByte_trunc_w8 _, hiByte_trunc_w8 _⟩
  refine ⟨fun e => ?_, fun e => ix (by simpa [State.x8, Flags.x8, State.setP] using e)⟩
  have e' : s.p.e = true := he ▸ e
  obtain ⟨h1, h2, _, _, h5⟩ := h.1 e'
  obtain ⟨a, b⟩ := hm e'
  refine ⟨a.trans h1, b.trans h2, (ix ?_).1, (ix ?_).2, h5⟩ <;> simp [he, e']

/-- R44: decoding a status byte keeps the invariants. -/
theorem State.decodeP_modeInv {s : State} (h : s.ModeInv) (v : Byte) : State.ModeInv (s.decodeP v) := by
  unfold State.decodeP
  refine State.setP_modeInv h _ _ (Flags.decode_e _ _) ?_ ?_
  · intro e; simp [Flags.decode, e]
  · intro e; simp [Flags.decode, e]; intro a _; exact a

/-- R46: `set_bits` keeps the invariants. -/
theorem State.setBits_modeInv {s : State} (h : s.ModeInv) (v : Byte) : State.ModeInv (s.setBits v) := by
  unfold State.setBits
  refine State.setP_modeInv h _ _ rfl ?_ ?_
  · intro e; simp [Flags.setBits, Flags.mask, e]
  · intro e; simp [Flags.setBits, Flags.mask, e]; intro a b; rw [b] at a; simpa using a

/-- R90, R91: a push or a pull keeps the invariants. -/
theorem State.push8_modeInv {s : State} (h : s.ModeInv) (v : Byte) : (s.push8 v).ModeInv :=
  State.modeInv_of h rfl rfl rfl rfl (.inl rfl) (.inl rfl) (.inr (State.pageInv_decS s))

theorem State.pull8_modeInv {s : State} (h : s.ModeInv) : s.pull8.2.ModeInv :=
  State.modeInv_of (t := s.pull8.2) h rfl rfl rfl rfl (.inl rfl) (.inl rfl) (.inr (State.pageInv_incS s))

end Sys2Proof.Machine
end

