-- ==== Sys2Proof/Laws/Operands.lean ====
section
/-! SUPPORT. What resolving, loading, storing and read-modify-write can do to the bus, and the range of a loaded
value. -/

namespace Sys2Proof.Machine

/-- A multi-byte read gives a value of its width. -/
theorem memRead_lt (P : Platform) (w : Width) (a : Addr) (b : Bus) : (memRead P w a b).1.toNat < 2 ^ w.bits := by
  cases w
  · simp only [memRead, toNat_zext16, Width.bits]; exact BitVec.isLt _
  · exact BitVec.isLt _

/-- Resolving an address leaves memory as it was. -/
@[simp] theorem resolve_mem (m : Mode) (s : State) : (resolve m s).bus.mem = s.bus.mem := by
  cases m <;> simp [resolve, plainEA, indexedEA, indexedLongEA]

@[simp] theorem loadMem_mem (m : Mode) (w : Width) (s : State) : (loadMem m w s).bus.mem = s.bus.mem := by
  simp [loadMem]

/-- Loading an operand leaves memory as it was. -/
@[simp] theorem load_mem (m : Mode) (w : Width) (s : State) : (load m w s).bus.mem = s.bus.mem := by
  cases m <;> simp [load]

/-- A loaded value is a value of its width. -/
theorem load_lt (m : Mode) (w : Width) (s : State) : (load m w s).val.toNat < 2 ^ w.bits := by
  cases m <;> first | exact toNat_trunc_lt w _ | exact memRead_lt _ w _ _

/-- A store keeps memory canonical. -/
theorem store_wf (m : Mode) (w : Width) (v : Word) {s : State} (h : s.MemInv) : Memory.wf (store m w v s).mem = true :=
  memWrite_wf _ w _ v (by rw [resolve_mem]; exact h)

/-- A store changes no byte outside its operand. -/
theorem store_other (m : Mode) (w : Width) (v : Word) (s : State) {n : Nat}
    (h : ∀ x ∈ accessAddrs s.plat w (resolve m s).addr, n ≠ x.asInteger) :
    Memory.read (store m w v s).mem n = Memory.read s.bus.mem n := by
  unfold store; dsimp only; rw [memWrite_other _ w _ v _ h, resolve_mem]

/-- A read-modify-write keeps memory canonical. -/
theorem rmwMem_wf (m : Mode) (w : Width) (f : Word → Word) {s : State} (h : s.MemInv) :
    Memory.wf (rmwMem m w f s).2.mem = true :=
  memWrite_wf _ w _ _ (by rw [memRead_mem, resolve_mem]; exact h)

/-- A read-modify-write changes no byte outside its operand. -/
theorem rmwMem_other (m : Mode) (w : Width) (f : Word → Word) (s : State) {n : Nat}
    (h : ∀ x ∈ accessAddrs s.plat w (resolve m s).addr, n ≠ x.asInteger) :
    Memory.read (rmwMem m w f s).2.mem n = Memory.read s.bus.mem n := by
  unfold rmwMem; dsimp only; rw [memWrite_other _ w _ _ _ h, memRead_mem, resolve_mem]

end Sys2Proof.Machine
end

