-- ==== Sys2Proof/Laws/PerInstr.lean ====
section
/-! SUPPORT. The statements made for every instruction, one lemma per constructor of Instr. -/

namespace Sys2Proof.Laws.EncodeShape

/-- R110, R112: at any widths the encoding of an instruction starts with its opcode byte and has its length, which is 1
to 4 bytes. -/
def Statement (i : Instr) : Prop :=
  ∀ m8 x8 : Bool, (encode m8 x8 i).head? = some i.opcode ∧ (encode m8 x8 i).length = i.len m8 x8 ∧
    1 ≤ i.len m8 x8 ∧ i.len m8 x8 ≤ 4

theorem brk (sig : Byte) : Statement (.brk sig) := encode_shape _
theorem oraDpXInd (d : Byte) : Statement (.oraDpXInd d) := encode_shape _
theorem cop (sig : Byte) : Statement (.cop sig) := encode_shape _
theorem oraSr (d : Byte) : Statement (.oraSr d) := encode_shape _
theorem tsbDp (d : Byte) : Statement (.tsbDp d) := encode_shape _
theorem oraDp (d : Byte) : Statement (.oraDp d) := encode_shape _
theorem aslDp (d : Byte) : Statement (.aslDp d) := encode_shape _
theorem oraDpIndL (d : Byte) : Statement (.oraDpIndL d) := encode_shape _
theorem php : Statement .php := encode_shape _
theorem oraImm (v : Word) : Statement (.oraImm v) := encode_shape _
theorem aslA : Statement .aslA := encode_shape _
theorem phd : Statement .phd := encode_shape _
theorem tsbAbs (a : Word) : Statement (.tsbAbs a) := encode_shape _
theorem oraAbs (a : Word) : Statement (.oraAbs a) := encode_shape _
theorem aslAbs (a : Word) : Statement (.aslAbs a) := encode_shape _
theorem oraAbsL (l : Addr) : Statement (.oraAbsL l) := encode_shape _
theorem bpl (r : Byte) : Statement (.bpl r) := encode_shape _
theorem oraDpIndY (d : Byte) : Statement (.oraDpIndY d) := encode_shape _
theorem oraDpInd (d : Byte) : Statement (.oraDpInd d) := encode_shape _
theorem oraSrIndY (d : Byte) : Statement (.oraSrIndY d) := encode_shape _
theorem trbDp (d : Byte) : Statement (.trbDp d) := encode_shape _
theorem oraDpX (d : Byte) : Statement (.oraDpX d) := encode_shape _
theorem aslDpX (d : Byte) : Statement (.aslDpX d) := encode_shape _
theorem oraDpIndLY (d : Byte) : Statement (.oraDpIndLY d) := encode_shape _
theorem clc : Statement .clc := encode_shape _
theorem oraAbsY (a : Word) : Statement (.oraAbsY a) := encode_shape _
theorem incA : Statement .incA := encode_shape _
theorem tcs : Statement .tcs := encode_shape _
theorem trbAbs (a : Word) : Statement (.trbAbs a) := encode_shape _
theorem oraAbsX (a : Word) : Statement (.oraAbsX a) := encode_shape _
theorem aslAbsX (a : Word) : Statement (.aslAbsX a) := encode_shape _
theorem oraAbsLX (l : Addr) : Statement (.oraAbsLX l) := encode_shape _
theorem jsrAbs (a : Word) : Statement (.jsrAbs a) := encode_shape _
theorem andDpXInd (d : Byte) : Statement (.andDpXInd d) := encode_shape _
theorem jslAbsL (l : Addr) : Statement (.jslAbsL l) := encode_shape _
theorem andSr (d : Byte) : Statement (.andSr d) := encode_shape _
theorem bitDp (d : Byte) : Statement (.bitDp d) := encode_shape _
theorem andDp (d : Byte) : Statement (.andDp d) := encode_shape _
theorem rolDp (d : Byte) : Statement (.rolDp d) := encode_shape _
theorem andDpIndL (d : Byte) : Statement (.andDpIndL d) := encode_shape _
theorem plp : Statement .plp := encode_shape _
theorem andImm (v : Word) : Statement (.andImm v) := encode_shape _
theorem rolA : Statement .rolA := encode_shape _
theorem pld : Statement .pld := encode_shape _
theorem bitAbs (a : Word) : Statement (.bitAbs a) := encode_shape _
theorem andAbs (a : Word) : Statement (.andAbs a) := encode_shape _
theorem rolAbs (a : Word) : Statement (.rolAbs a) := encode_shape _
theorem andAbsL (l : Addr) : Statement (.andAbsL l) := encode_shape _
theorem bmi (r : Byte) : Statement (.bmi r) := encode_shape _
theorem andDpIndY (d : Byte) : Statement (.andDpIndY d) := encode_shape _
theorem andDpInd (d : Byte) : Statement (.andDpInd d) := encode_shape _
theorem andSrIndY (d : Byte) : Statement (.andSrIndY d) := encode_shape _
theorem bitDpX (d : Byte) : Statement (.bitDpX d) := encode_shape _
theorem andDpX (d : Byte) : Statement (.andDpX d) := encode_shape _
theorem rolDpX (d : Byte) : Statement (.rolDpX d) := encode_shape _
theorem andDpIndLY (d : Byte) : Statement (.andDpIndLY d) := encode_shape _
theorem sec : Statement .sec := encode_shape _
theorem andAbsY (a : Word) : Statement (.andAbsY a) := encode_shape _
theorem decA : Statement .decA := encode_shape _
theorem tsc : Statement .tsc := encode_shape _
theorem bitAbsX (a : Word) : Statement (.bitAbsX a) := encode_shape _
theorem andAbsX (a : Word) : Statement (.andAbsX a) := encode_shape _
theorem rolAbsX (a : Word) : Statement (.rolAbsX a) := encode_shape _
theorem andAbsLX (l : Addr) : Statement (.andAbsLX l) := encode_shape _
theorem rti : Statement .rti := encode_shape _
theorem eorDpXInd (d : Byte) : Statement (.eorDpXInd d) := encode_shape _
theorem wdm (v : Byte) : Statement (.wdm v) := encode_shape _
theorem eorSr (d : Byte) : Statement (.eorSr d) := encode_shape _
theorem mvp (dst : Byte) (src : Byte) : Statement (.mvp dst src) := encode_shape _
theorem eorDp (d : Byte) : Statement (.eorDp d) := encode_shape _
theorem lsrDp (d : Byte) : Statement (.lsrDp d) := encode_shape _
theorem eorDpIndL (d : Byte) : Statement (.eorDpIndL d) := encode_shape _
theorem pha : Statement .pha := encode_shape _
theorem eorImm (v : Word) : Statement (.eorImm v) := encode_shape _
theorem lsrA : Statement .lsrA := encode_shape _
theorem phk : Statement .phk := encode_shape _
theorem jmpAbs (a : Word) : Statement (.jmpAbs a) := encode_shape _
theorem eorAbs (a : Word) : Statement (.eorAbs a) := encode_shape _
theorem lsrAbs (a : Word) : Statement (.lsrAbs a) := encode_shape _
theorem eorAbsL (l : Addr) : Statement (.eorAbsL l) := encode_shape _
theorem bvc (r : Byte) : Statement (.bvc r) := encode_shape _
theorem eorDpIndY (d : Byte) : Statement (.eorDpIndY d) := encode_shape _
theorem eorDpInd (d : Byte) : Statement (.eorDpInd d) := encode_shape _
theorem eorSrIndY (d : Byte) : Statement (.eorSrIndY d) := encode_shape _
theorem mvn (dst : Byte) (src : Byte) : Statement (.mvn dst src) := encode_shape _
theorem eorDpX (d : Byte) : Statement (.eorDpX d) := encode_shape _
theorem lsrDpX (d : Byte) : Statement (.lsrDpX d) := encode_shape _
theorem eorDpIndLY (d : Byte) : Statement (.eorDpIndLY d) := encode_shape _
theorem cli : Statement .cli := encode_shape _
theorem eorAbsY (a : Word) : Statement (.eorAbsY a) := encode_shape _
theorem phy : Statement .phy := encode_shape _
theorem tcd : Statement .tcd := encode_shape _
theorem jmlAbsL (l : Addr) : Statement (.jmlAbsL l) := encode_shape _
theorem eorAbsX (a : Word) : Statement (.eorAbsX a) := encode_shape _
theorem lsrAbsX (a : Word) : Statement (.lsrAbsX a) := encode_shape _
theorem eorAbsLX (l : Addr) : Statement (.eorAbsLX l) := encode_shape _
theorem rts : Statement .rts := encode_shape _
theorem adcDpXInd (d : Byte) : Statement (.adcDpXInd d) := encode_shape _
theorem per (r : Word) : Statement (.per r) := encode_shape _
theorem adcSr (d : Byte) : Statement (.adcSr d) := encode_shape _
theorem stzDp (d : Byte) : Statement (.stzDp d) := encode_shape _
theorem adcDp (d : Byte) : Statement (.adcDp d) := encode_shape _
theorem rorDp (d : Byte) : Statement (.rorDp d) := encode_shape _
theorem adcDpIndL (d : Byte) : Statement (.adcDpIndL d) := encode_shape _
theorem pla : Statement .pla := encode_shape _
theorem adcImm (v : Word) : Statement (.adcImm v) := encode_shape _
theorem rorA : Statement .rorA := encode_shape _
theorem rtl : Statement .rtl := encode_shape _
theorem jmpAbsInd (a : Word) : Statement (.jmpAbsInd a) := encode_shape _
theorem adcAbs (a : Word) : Statement (.adcAbs a) := encode_shape _
theorem rorAbs (a : Word) : Statement (.rorAbs a) := encode_shape _
theorem adcAbsL (l : Addr) : Statement (.adcAbsL l) := encode_shape _
theorem bvs (r : Byte) : Statement (.bvs r) := encode_shape _
theorem adcDpIndY (d : Byte) : Statement (.adcDpIndY d) := encode_shape _
theorem adcDpInd (d : Byte) : Statement (.adcDpInd d) := encode_shape _
theorem adcSrIndY (d : Byte) : Statement (.adcSrIndY d) := encode_shape _
theorem stzDpX (d : Byte) : Statement (.stzDpX d) := encode_shape _
theorem adcDpX (d : Byte) : Statement (.adcDpX d) := encode_shape _
theorem rorDpX (d : Byte) : Statement (.rorDpX d) := encode_shape _
theorem adcDpIndLY (d : Byte) : Statement (.adcDpIndLY d) := encode_shape _
theorem sei : Statement .sei := encode_shape _
theorem adcAbsY (a : Word) : Statement (.adcAbsY a) := encode_shape _
theorem ply : Statement .ply := encode_shape _
theorem tdc : Statement .tdc := encode_shape _
theorem jmpAbsXInd (a : Word) : Statement (.jmpAbsXInd a) := encode_shape _
theorem adcAbsX (a : Word) : Statement (.adcAbsX a) := encode_shape _
theorem rorAbsX (a : Word) : Statement (.rorAbsX a) := encode_shape _
theorem adcAbsLX (l : Addr) : Statement (.adcAbsLX l) := encode_shape _
theorem bra (r : Byte) : Statement (.bra r) := encode_shape _
theorem staDpXInd (d : Byte) : Statement (.staDpXInd d) := encode_shape _
theorem brl (r : Word) : Statement (.brl r) := encode_shape _
theorem staSr (d : Byte) : Statement (.staSr d) := encode_shape _
theorem styDp (d : Byte) : Statement (.styDp d) := encode_shape _
theorem staDp (d : Byte) : Statement (.staDp d) := encode_shape _
theorem stxDp (d : Byte) : Statement (.stxDp d) := encode_shape _
theorem staDpIndL (d : Byte) : Statement (.staDpIndL d) := encode_shape _
theorem dey : Statement .dey := encode_shape _
theorem bitImm (v : Word) : Statement (.bitImm v) := encode_shape _
theorem txa : Statement .txa := encode_shape _
theorem phb : Statement .phb := encode_shape _
theorem styAbs (a : Word) : Statement (.styAbs a) := encode_shape _
theorem staAbs (a : Word) : Statement (.staAbs a) := encode_shape _
theorem stxAbs (a : Word) : Statement (.stxAbs a) := encode_shape _
theorem staAbsL (l : Addr) : Statement (.staAbsL l) := encode_shape _
theorem bcc (r : Byte) : Statement (.bcc r) := encode_shape _
theorem staDpIndY (d : Byte) : Statement (.staDpIndY d) := encode_shape _
theorem staDpInd (d : Byte) : Statement (.staDpInd d) := encode_shape _
theorem staSrIndY (d : Byte) : Statement (.staSrIndY d) := encode_shape _
theorem styDpX (d : Byte) : Statement (.styDpX d) := encode_shape _
theorem staDpX (d : Byte) : Statement (.staDpX d) := encode_shape _
theorem stxDpY (d : Byte) : Statement (.stxDpY d) := encode_shape _
theorem staDpIndLY (d : Byte) : Statement (.staDpIndLY d) := encode_shape _
theorem tya : Statement .tya := encode_shape _
theorem staAbsY (a : Word) : Statement (.staAbsY a) := encode_shape _
theorem txs : Statement .txs := encode_shape _
theorem txy : Statement .txy := encode_shape _
theorem stzAbs (a : Word) : Statement (.stzAbs a) := encode_shape _
theorem staAbsX (a : Word) : Statement (.staAbsX a) := encode_shape _
theorem stzAbsX (a : Word) : Statement (.stzAbsX a) := encode_shape _
theorem staAbsLX (l : Addr) : Statement (.staAbsLX l) := encode_shape _
theorem ldyImm (v : Word) : Statement (.ldyImm v) := encode_shape _
theorem ldaDpXInd (d : Byte) : Statement (.ldaDpXInd d) := encode_shape _
theorem ldxImm (v : Word) : Statement (.ldxImm v) := encode_shape _
theorem ldaSr (d : Byte) : Statement (.ldaSr d) := encode_shape _
theorem ldyDp (d : Byte) : Statement (.ldyDp d) := encode_shape _
theorem ldaDp (d : Byte) : Statement (.ldaDp d) := encode_shape _
theorem ldxDp (d : Byte) : Statement (.ldxDp d) := encode_shape _
theorem ldaDpIndL (d : Byte) : Statement (.ldaDpIndL d) := encode_shape _
theorem tay : Statement .tay := encode_shape _
theorem ldaImm (v : Word) : Statement (.ldaImm v) := encode_shape _
theorem tax : Statement .tax := encode_shape _
theorem plb : Statement .plb := encode_shape _
theorem ldyAbs (a : Word) : Statement (.ldyAbs a) := encode_shape _
theorem ldaAbs (a : Word) : Statement (.ldaAbs a) := encode_shape _
theorem ldxAbs (a : Word) : Statement (.ldxAbs a) := encode_shape _
theorem ldaAbsL (l : Addr) : Statement (.ldaAbsL l) := encode_shape _
theorem bcs (r : Byte) : Statement (.bcs r) := encode_shape _
theorem ldaDpIndY (d : Byte) : Statement (.ldaDpIndY d) := encode_shape _
theorem ldaDpInd (d : Byte) : Statement (.ldaDpInd d) := encode_shape _
theorem ldaSrIndY (d : Byte) : Statement (.ldaSrIndY d) := encode_shape _
theorem ldyDpX (d : Byte) : Statement (.ldyDpX d) := encode_shape _
theorem ldaDpX (d : Byte) : Statement (.ldaDpX d) := encode_shape _
theorem ldxDpY (d : Byte) : Statement (.ldxDpY d) := encode_shape _
theorem ldaDpIndLY (d : Byte) : Statement (.ldaDpIndLY d) := encode_shape _
theorem clv : Statement .clv := encode_shape _
theorem ldaAbsY (a : Word) : Statement (.ldaAbsY a) := encode_shape _
theorem tsx : Statement .tsx := encode_shape _
theorem tyx : Statement .tyx := encode_shape _
theorem ldyAbsX (a : Word) : Statement (.ldyAbsX a) := encode_shape _
theorem ldaAbsX (a : Word) : Statement (.ldaAbsX a) := encode_shape _
theorem ldxAbsY (a : Word) : Statement (.ldxAbsY a) := encode_shape _
theorem ldaAbsLX (l : Addr) : Statement (.ldaAbsLX l) := encode_shape _
theorem cpyImm (v : Word) : Statement (.cpyImm v) := encode_shape _
theorem cmpDpXInd (d : Byte) : Statement (.cmpDpXInd d) := encode_shape _
theorem rep (v : Byte) : Statement (.rep v) := encode_shape _
theorem cmpSr (d : Byte) : Statement (.cmpSr d) := encode_shape _
theorem cpyDp (d : Byte) : Statement (.cpyDp d) := encode_shape _
theorem cmpDp (d : Byte) : Statement (.cmpDp d) := encode_shape _
theorem decDp (d : Byte) : Statement (.decDp d) := encode_shape _
theorem cmpDpIndL (d : Byte) : Statement (.cmpDpIndL d) := encode_shape _
theorem iny : Statement .iny := encode_shape _
theorem cmpImm (v : Word) : Statement (.cmpImm v) := encode_shape _
theorem dex : Statement .dex := encode_shape _
theorem wai : Statement .wai := encode_shape _
theorem cpyAbs (a : Word) : Statement (.cpyAbs a) := encode_shape _
theorem cmpAbs (a : Word) : Statement (.cmpAbs a) := encode_shape _
theorem decAbs (a : Word) : Statement (.decAbs a) := encode_shape _
theorem cmpAbsL (l : Addr) : Statement (.cmpAbsL l) := encode_shape _
theorem bne (r : Byte) : Statement (.bne r) := encode_shape _
theorem cmpDpIndY (d : Byte) : Statement (.cmpDpIndY d) := encode_shape _
theorem cmpDpInd (d : Byte) : Statement (.cmpDpInd d) := encode_shape _
theorem cmpSrIndY (d : Byte) : Statement (.cmpSrIndY d) := encode_shape _
theorem pei (d : Byte) : Statement (.pei d) := encode_shape _
theorem cmpDpX (d : Byte) : Statement (.cmpDpX d) := encode_shape _
theorem decDpX (d : Byte) : Statement (.decDpX d) := encode_shape _
theorem cmpDpIndLY (d : Byte) : Statement (.cmpDpIndLY d) := encode_shape _
theorem cld : Statement .cld := encode_shape _
theorem cmpAbsY (a : Word) : Statement (.cmpAbsY a) := encode_shape _
theorem phx : Statement .phx := encode_shape _
theorem stp : Statement .stp := encode_shape _
theorem jmlAbsIndL (a : Word) : Statement (.jmlAbsIndL a) := encode_shape _
theorem cmpAbsX (a : Word) : Statement (.cmpAbsX a) := encode_shape _
theorem decAbsX (a : Word) : Statement (.decAbsX a) := encode_shape _
theorem cmpAbsLX (l : Addr) : Statement (.cmpAbsLX l) := encode_shape _
theorem cpxImm (v : Word) : Statement (.cpxImm v) := encode_shape _
theorem sbcDpXInd (d : Byte) : Statement (.sbcDpXInd d) := encode_shape _
theorem sep (v : Byte) : Statement (.sep v) := encode_shape _
theorem sbcSr (d : Byte) : Statement (.sbcSr d) := encode_shape _
theorem cpxDp (d : Byte) : Statement (.cpxDp d) := encode_shape _
theorem sbcDp (d : Byte) : Statement (.sbcDp d) := encode_shape _
theorem incDp (d : Byte) : Statement (.incDp d) := encode_shape _
theorem sbcDpIndL (d : Byte) : Statement (.sbcDpIndL d) := encode_shape _
theorem inx : Statement .inx := encode_shape _
theorem sbcImm (v : Word) : Statement (.sbcImm v) := encode_shape _
theorem nop : Statement .nop := encode_shape _
theorem xba : Statement .xba := encode_shape _
theorem cpxAbs (a : Word) : Statement (.cpxAbs a) := encode_shape _
theorem sbcAbs (a : Word) : Statement (.sbcAbs a) := encode_shape _
theorem incAbs (a : Word) : Statement (.incAbs a) := encode_shape _
theorem sbcAbsL (l : Addr) : Statement (.sbcAbsL l) := encode_shape _
theorem beq (r : Byte) : Statement (.beq r) := encode_shape _
theorem sbcDpIndY (d : Byte) : Statement (.sbcDpIndY d) := encode_shape _
theorem sbcDpInd (d : Byte) : Statement (.sbcDpInd d) := encode_shape _
theorem sbcSrIndY (d : Byte) : Statement (.sbcSrIndY d) := encode_shape _
theorem pea (v : Word) : Statement (.pea v) := encode_shape _
theorem sbcDpX (d : Byte) : Statement (.sbcDpX d) := encode_shape _
theorem incDpX (d : Byte) : Statement (.incDpX d) := encode_shape _
theorem sbcDpIndLY (d : Byte) : Statement (.sbcDpIndLY d) := encode_shape _
theorem sed : Statement .sed := encode_shape _
theorem sbcAbsY (a : Word) : Statement (.sbcAbsY a) := encode_shape _
theorem plx : Statement .plx := encode_shape _
theorem xce : Statement .xce := encode_shape _
theorem jsrAbsXInd (a : Word) : Statement (.jsrAbsXInd a) := encode_shape _
theorem sbcAbsX (a : Word) : Statement (.sbcAbsX a) := encode_shape _
theorem incAbsX (a : Word) : Statement (.incAbsX a) := encode_shape _
theorem sbcAbsLX (l : Addr) : Statement (.sbcAbsLX l) := encode_shape _

end Sys2Proof.Laws.EncodeShape
end

