-- ==== Sys2Proof/Laws/Run.lean ====
section
/-! SUPPORT. What the run of a launch can do (R462): it ends at most once, stays ended, and from a stuck or a stopped
state a step changes nothing. -/

namespace Sys2Proof.Machine

/-- A run of no step. -/
theorem runFrom_zero (halt : Option Addr) (s : State) :
    runFrom halt 0 s = (s.endHere halt).elim (.going s) .ended := by
  cases h : s.endHere halt <;> simp [runFrom, h]

/-- One step of a run that has not ended. -/
theorem runFrom_succ {halt : Option Addr} {s : State} (h : s.endHere halt = none) (n : Nat) :
    runFrom halt (n + 1) s = afterStep s (runFrom halt n) (step s) := by
  simp only [runFrom, h]

/-- A state that is an end ends the run at once. -/
theorem runFrom_ended {halt : Option Addr} {s : State} {e : RunEnd} (h : s.endHere halt = some e) (n : Nat) :
    runFrom halt n s = .ended e := by
  cases n <;> simp only [runFrom, h]

/-- A run that has ended takes no further step. -/
theorem runFrom_add {halt : Option Addr} {e : RunEnd} (n k : Nat) (s : State) (h : runFrom halt n s = .ended e) :
    runFrom halt (n + k) s = .ended e := by
  induction n generalizing s with
  | zero =>
    cases he : s.endHere halt with
    | none => rw [runFrom_zero, he] at h; nomatch h
    | some e' => rw [runFrom_ended he] at h ⊢; exact h
  | succ n ih =>
    cases he : s.endHere halt with
    | some e' => rw [runFrom_ended he] at h ⊢; exact h
    | none =>
      rw [runFrom_succ he] at h
      rw [Nat.add_right_comm, runFrom_succ he]
      cases hs : step s with
      | next t => rw [hs] at h; exact ih t h
      | fault f => rw [hs] at h; exact h
      | refused r => rw [hs] at h; exact h

/-- R462: a run ends at most once. -/
theorem Launch.ends_unique {l : Launch} {e e' : RunEnd} (h : l.Ends e) (h' : l.Ends e') : e = e' := by
  obtain ⟨n, hn⟩ := h
  obtain ⟨m, hm⟩ := h'
  have a := runFrom_add n m l.start hn
  have b := runFrom_add m n l.start hm
  rw [Nat.add_comm, b] at a
  exact (Progress.ended.inj a).symm

/-- R462: a run hangs exactly when it has no end. -/
theorem Launch.hangs_iff (l : Launch) : l.Hangs ↔ ∀ e, ¬ l.Ends e := by
  constructor
  · rintro h e ⟨n, hn⟩
    obtain ⟨s, hs⟩ := h n
    rw [hs] at hn; cases hn
  · intro h n
    cases hn : l.after n with
    | going s => exact ⟨s, rfl⟩
    | ended e => exact absurd ⟨n, hn⟩ (h e)

/-- R402 to R404: from a stuck state a step changes nothing. -/
theorem State.step_stuck {s : State} (h : s.isStuck = true) : step s = .next s := by
  have hb : s.boundary = .done s := by
    simp only [State.isStuck, Bool.or_eq_true, Bool.and_eq_true, decide_eq_true_eq, Bool.not_eq_true'] at h
    rcases h with (⟨h1, h2⟩ | ⟨⟨⟨h1, h2⟩, h3⟩, h4⟩) | ⟨⟨⟨h1, h2⟩, h3⟩, h4⟩
    · simp only [State.boundary, h1, if_true, ← h2]
    · rcases h3 with h3 | h3 <;> simp [State.boundary, h1, h2, h3, h4]
    · cases h5 : s.pins.rdy <;> simp [State.boundary, h1, h2, h3, h4, h5]
  simp [step, hb]

end Sys2Proof.Machine
end

