-- ==== Sys2Proof/Laws/Shapes.lean ====
section
/-! SUPPORT. Every shared operation of the instruction families as one record: which fields it writes and with what,
every other field being that of the state before. A proof about an instruction rewrites with its lemma and never
unfolds the operation. -/

namespace Sys2Proof.Machine

/-- R470: under the default `CYCLES` an instruction costs what R471 to R475 give. -/
theorem State.cycles_standard {s : State} (h : s.plat.cycles = .standard) (op : Byte) (n : Nat) : s.cycles op n = n := by
  simp [State.cycles, h]

/-- The cycles of an instruction that loads an operand. -/
def readCycles (op : Byte) (m : Mode) (w : Width) (s : State) : Nat :=
  s.cycles op (baseCycles op + widthPenalty w + dpPenalty m s.dp + pagePenalty (load m w s).crossed)

/-- The cycles of an instruction that stores or modifies an operand. -/
def writeCycles (op : Byte) (m : Mode) (w : Width) (s : State) : Nat :=
  s.cycles op (baseCycles op + widthPenalty w + dpPenalty m s.dp)

/-! ## Loads and stores -/

/-- R170. -/
theorem lda_eq (op : Byte) (m : Mode) (s : State) :
    lda op m s =
      { s with a := writeKeep s.wA (load m s.wA s).val s.a, p := s.p.nz s.wA (load m s.wA s).val,
               bus := (load m s.wA s).bus,
               pc := s.pc + BitVec.ofNat 16 (m.len s.m8 s.x8), cyc := s.cyc + BitVec.ofNat 64 (readCycles op m s.wA s) } := rfl

/-- R171. -/
theorem ldx_eq (op : Byte) (m : Mode) (s : State) :
    ldx op m s =
      { s with x := trunc s.wX (load m s.wX s).val, p := s.p.nz s.wX (load m s.wX s).val,
               bus := (load m s.wX s).bus,
               pc := s.pc + BitVec.ofNat 16 (m.len s.m8 s.x8), cyc := s.cyc + BitVec.ofNat 64 (readCycles op m s.wX s) } := rfl

/-- R172. -/
theorem ldy_eq (op : Byte) (m : Mode) (s : State) :
    ldy op m s =
      { s with y := trunc s.wX (load m s.wX s).val, p := s.p.nz s.wX (load m s.wX s).val,
               bus := (load m s.wX s).bus,
               pc := s.pc + BitVec.ofNat 16 (m.len s.m8 s.x8), cyc := s.cyc + BitVec.ofNat 64 (readCycles op m s.wX s) } := rfl

/-- R173. -/
theorem sta_eq (op : Byte) (m : Mode) (s : State) :
    sta op m s =
      { s with bus := store m s.wA (s.getA s.wA) s,
               pc := s.pc + BitVec.ofNat 16 (m.len s.m8 s.x8), cyc := s.cyc + BitVec.ofNat 64 (writeCycles op m s.wA s) } := rfl

/-- R174. -/
theorem stx_eq (op : Byte) (m : Mode) (s : State) :
    stx op m s =
      { s with bus := store m s.wX s.getX s,
               pc := s.pc + BitVec.ofNat 16 (m.len s.m8 s.x8), cyc := s.cyc + BitVec.ofNat 64 (writeCycles op m s.wX s) } := rfl

/-- R175. -/
theorem sty_eq (op : Byte) (m : Mode) (s : State) :
    sty op m s =
      { s with bus := store m s.wX s.getY s,
               pc := s.pc + BitVec.ofNat 16 (m.len s.m8 s.x8), cyc := s.cyc + BitVec.ofNat 64 (writeCycles op m s.wX s) } := rfl

/-- R176. -/
theorem stz_eq (op : Byte) (m : Mode) (s : State) :
    stz op m s =
      { s with bus := store m s.wA 0x0000#16 s,
               pc := s.pc + BitVec.ofNat 16 (m.len s.m8 s.x8), cyc := s.cyc + BitVec.ofNat 64 (writeCycles op m s.wA s) } := rfl

/-! ## Arithmetic and logic -/

/-- The result and the carry of ADC (R196). -/
def adcResult (m : Mode) (s : State) : Word × Bool :=
  if s.p.d then decAdd s.wA (load m s.wA s).bus.draws (s.getA s.wA) (load m s.wA s).val s.p.c
  else addBin s.wA (s.getA s.wA) (load m s.wA s).val s.p.c

/-- The result and the carry of SBC (R197). -/
def sbcResult (m : Mode) (s : State) : Word × Bool :=
  if s.p.d then decSub s.plat.decSbc16 s.wA (load m s.wA s).bus.draws (s.getA s.wA) (load m s.wA s).val s.p.c
  else addBin s.wA (s.getA s.wA) (complement s.wA (load m s.wA s).val) s.p.c

/-- R196. -/
theorem adc_eq (op : Byte) (m : Mode) (s : State) :
    adc op m s =
      { s with a := writeKeep s.wA (adcResult m s).1 s.a,
               p := { s.p.nz s.wA (adcResult m s).1 with v := overflow s.wA (s.getA s.wA) (load m s.wA s).val s.p.c, c := (adcResult m s).2 },
               bus := (load m s.wA s).bus.afterDecimal s.p.d,
               pc := s.pc + BitVec.ofNat 16 (m.len s.m8 s.x8), cyc := s.cyc + BitVec.ofNat 64 (readCycles op m s.wA s) } := rfl

/-- R197. -/
theorem sbc_eq (op : Byte) (m : Mode) (s : State) :
    sbc op m s =
      { s with a := writeKeep s.wA (sbcResult m s).1 s.a,
               p := { s.p.nz s.wA (sbcResult m s).1 with v := overflow s.wA (s.getA s.wA) (complement s.wA (load m s.wA s).val) s.p.c, c := (sbcResult m s).2 },
               bus := (load m s.wA s).bus.afterDecimal s.p.d,
               pc := s.pc + BitVec.ofNat 16 (m.len s.m8 s.x8), cyc := s.cyc + BitVec.ofNat 64 (readCycles op m s.wA s) } := rfl

/-- R198. -/
theorem andInstr_eq (op : Byte) (m : Mode) (s : State) :
    andInstr op m s =
      { s with a := writeKeep s.wA (s.getA s.wA &&& (load m s.wA s).val) s.a, p := s.p.nz s.wA (s.getA s.wA &&& (load m s.wA s).val),
               bus := (load m s.wA s).bus,
               pc := s.pc + BitVec.ofNat 16 (m.len s.m8 s.x8), cyc := s.cyc + BitVec.ofNat 64 (readCycles op m s.wA s) } := rfl

/-- R199. -/
theorem ora_eq (op : Byte) (m : Mode) (s : State) :
    ora op m s =
      { s with a := writeKeep s.wA (s.getA s.wA ||| (load m s.wA s).val) s.a, p := s.p.nz s.wA (s.getA s.wA ||| (load m s.wA s).val),
               bus := (load m s.wA s).bus,
               pc := s.pc + BitVec.ofNat 16 (m.len s.m8 s.x8), cyc := s.cyc + BitVec.ofNat 64 (readCycles op m s.wA s) } := rfl

/-- R200. -/
theorem eor_eq (op : Byte) (m : Mode) (s : State) :
    eor op m s =
      { s with a := writeKeep s.wA (s.getA s.wA ^^^ (load m s.wA s).val) s.a, p := s.p.nz s.wA (s.getA s.wA ^^^ (load m s.wA s).val),
               bus := (load m s.wA s).bus,
               pc := s.pc + BitVec.ofNat 16 (m.len s.m8 s.x8), cyc := s.cyc + BitVec.ofNat 64 (readCycles op m s.wA s) } := rfl

/-- R201, the memory forms. -/
theorem bitMem_eq (op : Byte) (m : Mode) (s : State) :
    bitMem op m s =
      { s with p := { s.p with z := s.getA s.wA &&& (load m s.wA s).val == 0#16, n := topBit s.wA (load m s.wA s).val, v := secondBit s.wA (load m s.wA s).val },
               bus := (load m s.wA s).bus,
               pc := s.pc + BitVec.ofNat 16 (m.len s.m8 s.x8), cyc := s.cyc + BitVec.ofNat 64 (readCycles op m s.wA s) } := rfl

/-- R201, the immediate form. -/
theorem bitImmediate_eq (op : Byte) (m : Mode) (s : State) :
    bitImmediate op m s =
      { s with p := { s.p with z := s.getA s.wA &&& (load m s.wA s).val == 0#16 },
               bus := (load m s.wA s).bus,
               pc := s.pc + BitVec.ofNat 16 (m.len s.m8 s.x8), cyc := s.cyc + BitVec.ofNat 64 (readCycles op m s.wA s) } := rfl

/-- R202. -/
theorem cmpInstr_eq (op : Byte) (m : Mode) (s : State) :
    cmpInstr op m s =
      { s with p := s.p.compare s.wA (s.getA s.wA) (load m s.wA s).val,
               bus := (load m s.wA s).bus,
               pc := s.pc + BitVec.ofNat 16 (m.len s.m8 s.x8), cyc := s.cyc + BitVec.ofNat 64 (readCycles op m s.wA s) } := rfl

/-- R203. -/
theorem cpx_eq (op : Byte) (m : Mode) (s : State) :
    cpx op m s =
      { s with p := s.p.compare s.wX (trunc s.wX s.x) (load m s.wX s).val,
               bus := (load m s.wX s).bus,
               pc := s.pc + BitVec.ofNat 16 (m.len s.m8 s.x8), cyc := s.cyc + BitVec.ofNat 64 (readCycles op m s.wX s) } := rfl

/-- R204. -/
theorem cpy_eq (op : Byte) (m : Mode) (s : State) :
    cpy op m s =
      { s with p := s.p.compare s.wX (trunc s.wX s.y) (load m s.wX s).val,
               bus := (load m s.wX s).bus,
               pc := s.pc + BitVec.ofNat 16 (m.len s.m8 s.x8), cyc := s.cyc + BitVec.ofNat 64 (readCycles op m s.wX s) } := rfl

/-- R207. -/
theorem inx_eq (op : Byte) (s : State) :
    inx op s =
      { s with x := increment s.wX s.getX, p := s.p.nz s.wX (increment s.wX s.getX),
               pc := s.pc + 1#16, cyc := s.cyc + BitVec.ofNat 64 (s.cycles op (baseCycles op)) } := by
  show ({ s with x := trunc s.wX (increment s.wX s.getX), p := _, pc := _, cyc := _ } : State) = _
  rw [increment, trunc_trunc]
  rfl

/-- R208. -/
theorem iny_eq (op : Byte) (s : State) :
    iny op s =
      { s with y := increment s.wX s.getY, p := s.p.nz s.wX (increment s.wX s.getY),
               pc := s.pc + 1#16, cyc := s.cyc + BitVec.ofNat 64 (s.cycles op (baseCycles op)) } := by
  show ({ s with y := trunc s.wX (increment s.wX s.getY), p := _, pc := _, cyc := _ } : State) = _
  rw [increment, trunc_trunc]
  rfl

/-- R209. -/
theorem dex_eq (op : Byte) (s : State) :
    dex op s =
      { s with x := decrement s.wX s.getX, p := s.p.nz s.wX (decrement s.wX s.getX),
               pc := s.pc + 1#16, cyc := s.cyc + BitVec.ofNat 64 (s.cycles op (baseCycles op)) } := by
  show ({ s with x := trunc s.wX (decrement s.wX s.getX), p := _, pc := _, cyc := _ } : State) = _
  rw [decrement, trunc_trunc]
  rfl

/-- R210. -/
theorem dey_eq (op : Byte) (s : State) :
    dey op s =
      { s with y := decrement s.wX s.getY, p := s.p.nz s.wX (decrement s.wX s.getY),
               pc := s.pc + 1#16, cyc := s.cyc + BitVec.ofNat 64 (s.cycles op (baseCycles op)) } := by
  show ({ s with y := trunc s.wX (decrement s.wX s.getY), p := _, pc := _, cyc := _ } : State) = _
  rw [decrement, trunc_trunc]
  rfl

/-- R157, R234: all that a read-modify-write does, on the accumulator or on memory. -/
theorem rmwInstr_cases (op : Byte) (m : Mode) (w : Width) (f : Word → Word) (g : Word → Flags) (s : State) :
    (m = .acc ∧ rmwInstr op m w f g s =
      { s with a := writeKeep w (f (s.getA w)) s.a, p := g (s.getA w), pc := s.pc + 1#16,
               cyc := s.cyc + BitVec.ofNat 64 (s.cycles op (baseCycles op)) }) ∨
    (m ≠ .acc ∧ rmwInstr op m w f g s =
      { s with p := g (rmwMem m w f s).1, bus := (rmwMem m w f s).2,
               pc := s.pc + BitVec.ofNat 16 (m.len s.m8 s.x8), cyc := s.cyc + BitVec.ofNat 64 (writeCycles op m w s) }) := by
  cases m <;> first | exact .inl ⟨rfl, rfl⟩ | exact .inr ⟨nofun, rfl⟩

/-! ## Control flow -/

/-- R240, R473. -/
theorem branch_eq (op : Byte) (cond : Bool) (r : Byte) (s : State) :
    branch op cond r s =
      { s with pc := if cond then s.rel8Target r else s.pc + 2#16,
               cyc := s.cyc + BitVec.ofNat 64
                 (s.cycles op (branchCycles op cond s.p.e (s.pc + 2#16) (s.rel8Target r))) } := rfl

/-- R250. -/
theorem brl_eq (op : Byte) (r : Word) (s : State) :
    brl op r s =
      { s with pc := s.rel16Target r, cyc := s.cyc + BitVec.ofNat 64 (s.cycles op (baseCycles op)) } := rfl

/-- R251. -/
theorem jmp_eq (op : Byte) (t : Word) (s : State) :
    jmp op t s =
      { s with pc := t, cyc := s.cyc + BitVec.ofNat 64 (s.cycles op (baseCycles op)) } := rfl

/-- R252, R253. -/
theorem jmpPointer_eq (op : Byte) (m : Mode) (s : State) :
    jmpPointer op m s =
      { s with pc := (jumpPointer m s).1, bus := (jumpPointer m s).2, cyc := s.cyc + BitVec.ofNat 64 (s.cycles op (baseCycles op)) } := rfl

/-- R254. -/
theorem jml_eq (op : Byte) (t : Addr) (s : State) :
    jml op t s =
      { s with pbr := t.bank, pc := t.offset, cyc := s.cyc + BitVec.ofNat 64 (s.cycles op (baseCycles op)) } := rfl

/-- R255. -/
theorem jmlPointer_eq (op : Byte) (m : Mode) (s : State) :
    jmlPointer op m s =
      { s with pbr := (jumpPointerLong m s).1.bank, pc := (jumpPointerLong m s).1.offset,
               bus := (jumpPointerLong m s).2, cyc := s.cyc + BitVec.ofNat 64 (s.cycles op (baseCycles op)) } := rfl

/-- R256. -/
theorem jsr_eq (op : Byte) (t : Word) (s : State) :
    jsr op t s =
      { s with pc := t, sp := (s.push16 (s.pc + 2#16)).sp, bus := (s.push16 (s.pc + 2#16)).bus,
               cyc := s.cyc + BitVec.ofNat 64 (s.cycles op (baseCycles op)) } := rfl

/-- The state whose push JSR (abs,X) makes, after its pointer was read (R257, decision D7). -/
def afterPointer (m : Mode) (s : State) : State := { s with bus := (jumpPointer m s).2 }

/-- R257. -/
theorem jsrPointer_eq (op : Byte) (m : Mode) (s : State) :
    jsrPointer op m s =
      { s with pc := (jumpPointer m s).1, sp := ((afterPointer m s).push16 (s.pc + 2#16)).sp,
               bus := ((afterPointer m s).push16 (s.pc + 2#16)).bus, cyc := s.cyc + BitVec.ofNat 64 (s.cycles op (baseCycles op)) } := rfl

/-- R258. -/
theorem jsl_eq (op : Byte) (t : Addr) (s : State) :
    jsl op t s =
      { s with pbr := t.bank, pc := t.offset, sp := (s.push24 s.pbr (s.pc + 3#16)).sp,
               bus := (s.push24 s.pbr (s.pc + 3#16)).bus, cyc := s.cyc + BitVec.ofNat 64 (s.cycles op (baseCycles op)) } := rfl

/-- R259. -/
theorem rts_eq (op : Byte) (s : State) :
    rts op s =
      { s with pc := s.pull16.1 + 1#16, sp := s.pull16.2.sp, bus := s.pull16.2.bus,
               cyc := s.cyc + BitVec.ofNat 64 (s.cycles op (baseCycles op)) } := rfl

/-- R260. -/
theorem rtl_eq (op : Byte) (s : State) :
    rtl op s =
      { s with pbr := s.pull24.1.bank, pc := s.pull24.1.offset + 1#16, sp := s.pull24.2.sp, bus := s.pull24.2.bus,
               cyc := s.cyc + BitVec.ofNat 64 (s.cycles op (baseCycles op)) } := rfl

/-! ## The stack -/

/-- A push of either width writes S and the bus alone. -/
theorem State.pushW_eq (s : State) (w : Width) (v : Word) :
    s.pushW w v = { s with sp := (s.pushW w v).sp, bus := (s.pushW w v).bus } := by cases w <;> rfl

/-- A pull of either width writes S and the bus alone. -/
theorem State.pullW_eq (s : State) (w : Width) :
    (s.pullW w).2 = { s with sp := (s.pullW w).2.sp, bus := (s.pullW w).2.bus } := by cases w <;> rfl

/-- R270 to R272. -/
theorem pushReg_eq (op : Byte) (w : Width) (v : Word) (s : State) :
    pushReg op w v s =
      { s with sp := (s.pushW w v).sp, bus := (s.pushW w v).bus,
               pc := s.pc + 1#16, cyc := s.cyc + BitVec.ofNat 64 (s.cycles op (baseCycles op + widthPenalty w)) } := by
  unfold pushReg; rw [State.pushW_eq]; rfl

/-- The flags when PHP pushes them (R273). -/
def Flags.pushed (p : Flags) : Flags := if p.e then { p with b := true } else p

/-- R273. -/
theorem php_eq (op : Byte) (s : State) :
    php op s =
      { s with p := s.p.pushed, sp := (s.push8 s.p.pushed.encode).sp, bus := (s.push8 s.p.pushed.encode).bus,
               pc := s.pc + 1#16, cyc := s.cyc + BitVec.ofNat 64 (s.cycles op (baseCycles op)) } := by
  unfold php Flags.pushed
  cases h : s.p.e <;> simp [State.push8_eq, State.finish, State.decS, State.page1, h]

/-- R274, R276. -/
theorem pushBank_eq (op : Byte) (v : Byte) (s : State) :
    pushBank op v s =
      { s with sp := (s.push8 v).sp, bus := (s.push8 v).bus,
               pc := s.pc + 1#16, cyc := s.cyc + BitVec.ofNat 64 (s.cycles op (baseCycles op)) } := rfl

/-- R275. -/
theorem phd_eq (op : Byte) (s : State) :
    phd op s =
      { s with sp := (s.push16 s.dp).sp, bus := (s.push16 s.dp).bus,
               pc := s.pc + 1#16, cyc := s.cyc + BitVec.ofNat 64 (s.cycles op (baseCycles op)) } := rfl

/-- R277. -/
theorem pla_eq (op : Byte) (s : State) :
    pla op s =
      { s with a := writeKeep s.wA (s.pullW s.wA).1 s.a, p := s.p.nz s.wA (s.pullW s.wA).1, sp := (s.pullW s.wA).2.sp,
               bus := (s.pullW s.wA).2.bus, pc := s.pc + 1#16, cyc := s.cyc + BitVec.ofNat 64 (s.cycles op (baseCycles op + widthPenalty s.wA)) } := by
  unfold pla; dsimp only; rw [State.pullW_eq]; rfl

/-- R278. -/
theorem plx_eq (op : Byte) (s : State) :
    plx op s =
      { s with x := trunc s.wX (s.pullW s.wX).1, p := s.p.nz s.wX (s.pullW s.wX).1, sp := (s.pullW s.wX).2.sp,
               bus := (s.pullW s.wX).2.bus, pc := s.pc + 1#16, cyc := s.cyc + BitVec.ofNat 64 (s.cycles op (baseCycles op + widthPenalty s.wX)) } := by
  unfold plx; dsimp only; rw [State.pullW_eq]; rfl

/-- R279. -/
theorem ply_eq (op : Byte) (s : State) :
    ply op s =
      { s with y := trunc s.wX (s.pullW s.wX).1, p := s.p.nz s.wX (s.pullW s.wX).1, sp := (s.pullW s.wX).2.sp,
               bus := (s.pullW s.wX).2.bus, pc := s.pc + 1#16, cyc := s.cyc + BitVec.ofNat 64 (s.cycles op (baseCycles op + widthPenalty s.wX)) } := by
  unfold ply; dsimp only; rw [State.pullW_eq]; rfl

/-- An index register after a status byte was loaded: its high byte becomes 0 where X is then 1 in native mode (R44,
R50). -/
def narrowed (e x : Bool) (v : Word) : Word := if !e && x then zext16 (loByte v) else v

/-- R280. -/
theorem plp_eq (op : Byte) (s : State) :
    plp op s =
      { s with p := s.p.decode s.pull8.1, x := narrowed s.p.e (s.pull8.1.getLsbD 4) s.x,
               y := narrowed s.p.e (s.pull8.1.getLsbD 4) s.y, sp := s.pull8.2.sp, bus := s.pull8.2.bus,
               pc := s.pc + 1#16, cyc := s.cyc + BitVec.ofNat 64 (s.cycles op (baseCycles op)) } := by
  unfold plp; dsimp only; rw [State.decodeP_eq]; rfl

/-- R281. -/
theorem plb_eq (op : Byte) (s : State) :
    plb op s =
      { s with dbr := s.pull8.1, p := s.p.nz .w8 (zext16 s.pull8.1), sp := s.pull8.2.sp, bus := s.pull8.2.bus,
               pc := s.pc + 1#16, cyc := s.cyc + BitVec.ofNat 64 (s.cycles op (baseCycles op)) } := rfl

/-- R282. -/
theorem pld_eq (op : Byte) (s : State) :
    pld op s =
      { s with dp := s.pull16.1, p := s.p.nz .w16 s.pull16.1, sp := s.pull16.2.sp, bus := s.pull16.2.bus,
               pc := s.pc + 1#16, cyc := s.cyc + BitVec.ofNat 64 (s.cycles op (baseCycles op)) } := rfl

/-- R283. -/
theorem pea_eq (op : Byte) (v : Word) (s : State) :
    pea op v s =
      { s with sp := (s.push16 v).sp, bus := (s.push16 v).bus, pc := s.pc + 3#16,
               cyc := s.cyc + BitVec.ofNat 64 (s.cycles op (baseCycles op)) } := rfl

/-- The state whose push PEI makes, after its word was read (R284). -/
def afterPeiWord (d : Byte) (s : State) : State := { s with bus := (peiWord d s).2 }

/-- R284. -/
theorem pei_eq (op : Byte) (d : Byte) (s : State) :
    pei op d s =
      { s with sp := ((afterPeiWord d s).push16 (peiWord d s).1).sp,
               bus := ((afterPeiWord d s).push16 (peiWord d s).1).bus, pc := s.pc + 2#16,
               cyc := s.cyc + BitVec.ofNat 64 (s.cycles op (baseCycles op + dpPenalty (.pei d) s.dp)) } := rfl

/-- R285. -/
theorem per_eq (op : Byte) (r : Word) (s : State) :
    per op r s =
      { s with sp := (s.push16 (s.rel16Target r)).sp, bus := (s.push16 (s.rel16Target r)).bus, pc := s.pc + 3#16,
               cyc := s.cyc + BitVec.ofNat 64 (s.cycles op (baseCycles op)) } := rfl

/-! ## Transfers, flags and system -/

/-- R313. -/
theorem transferToX_eq (op : Byte) (v : Word) (s : State) :
    transferToX op v s =
      { s with x := trunc s.wX v, p := s.p.nz s.wX v,
               pc := s.pc + 1#16, cyc := s.cyc + BitVec.ofNat 64 (s.cycles op (baseCycles op)) } := rfl

/-- R313. -/
theorem transferToY_eq (op : Byte) (v : Word) (s : State) :
    transferToY op v s =
      { s with y := trunc s.wX v, p := s.p.nz s.wX v,
               pc := s.pc + 1#16, cyc := s.cyc + BitVec.ofNat 64 (s.cycles op (baseCycles op)) } := rfl

/-- R313. -/
theorem transferToA_eq (op : Byte) (v : Word) (s : State) :
    transferToA op v s =
      { s with a := writeKeep s.wA v s.a, p := s.p.nz s.wA v,
               pc := s.pc + 1#16, cyc := s.cyc + BitVec.ofNat 64 (s.cycles op (baseCycles op)) } := rfl

/-- R305, R310. -/
theorem transferToS_eq (op : Byte) (v : Word) (s : State) :
    transferToS op v s =
      { s with sp := if s.p.e then rehome v else v, pc := s.pc + 1#16, cyc := s.cyc + BitVec.ofNat 64 (s.cycles op (baseCycles op)) } := rfl

/-- R308. -/
theorem tcd_eq (op : Byte) (s : State) :
    tcd op s =
      { s with dp := s.a, p := s.p.nz .w16 s.a, pc := s.pc + 1#16, cyc := s.cyc + BitVec.ofNat 64 (s.cycles op (baseCycles op)) } := rfl

/-- R309, R311. -/
theorem transferToC_eq (op : Byte) (v : Word) (s : State) :
    transferToC op v s =
      { s with a := v, p := s.p.nz .w16 v, pc := s.pc + 1#16, cyc := s.cyc + BitVec.ofNat 64 (s.cycles op (baseCycles op)) } := rfl

/-- R312. -/
theorem xba_eq (op : Byte) (s : State) :
    xba op s =
      { s with a := swapBytes s.a, p := s.p.nz .w8 (swapBytes s.a),
               pc := s.pc + 1#16, cyc := s.cyc + BitVec.ofNat 64 (s.cycles op (baseCycles op)) } := rfl

/-- R320 to R326. -/
theorem flagInstr_eq (op : Byte) (f : Flags → Flags) (s : State) :
    flagInstr op f s =
      { s with p := f s.p, pc := s.pc + 1#16, cyc := s.cyc + BitVec.ofNat 64 (s.cycles op (baseCycles op)) } := rfl

/-- R327. -/
theorem rep_eq (op : Byte) (v : Byte) (s : State) :
    rep op v s =
      { s with p := s.p.resetBits v, pc := s.pc + 2#16, cyc := s.cyc + BitVec.ofNat 64 (s.cycles op (baseCycles op)) } := rfl

/-- R328. -/
theorem sep_eq (op : Byte) (v : Byte) (s : State) :
    sep op v s =
      { s with p := s.p.setBits v, x := narrowed s.p.e (v.getLsbD 4) s.x, y := narrowed s.p.e (v.getLsbD 4) s.y,
               pc := s.pc + 2#16, cyc := s.cyc + BitVec.ofNat 64 (s.cycles op (baseCycles op)) } := by
  simp only [sep, State.setBits, State.setP, State.finish, trunc_widthOf]
  rfl

/-- R329: all that XCE does, by the carry. -/
theorem xce_cases (op : Byte) (s : State) :
    (s.p.c = true ∧ xce op s =
      { s with p := { s.p with e := true, c := s.p.e, m := true, x := true }, x := trunc .w8 s.x, y := trunc .w8 s.y,
               sp := rehome s.sp, pc := s.pc + 1#16, cyc := s.cyc + BitVec.ofNat 64 (s.cycles op (baseCycles op)) }) ∨
    (s.p.c = false ∧ xce op s =
      { s with p := { s.p with e := false, c := s.p.e }, pc := s.pc + 1#16,
               cyc := s.cyc + BitVec.ofNat 64 (s.cycles op (baseCycles op)) }) := by
  cases h : s.p.c
  · exact .inr ⟨rfl, by simp [xce, impliedInstr, xceEffect, State.finish, h]⟩
  · exact .inl ⟨rfl, by simp [xce, impliedInstr, xceEffect, State.finish, h]⟩

/-- R340, R341: the entry pushes and reads the vector (`State.enter_eq`). -/
theorem softwareInterrupt_eq (op : Byte) (k : Cause) (s : State) :
    softwareInterrupt op k s =
      { s with p := { s.p.entering k with i := true, d := false }, pbr := 0x00#8, sp := (s.enter k (s.pc + 2#16)).sp,
               pc := (s.enter k (s.pc + 2#16)).pc, bus := (s.enter k (s.pc + 2#16)).bus,
               cyc := s.cyc + BitVec.ofNat 64 (s.cycles op (baseCycles op + nativePenalty s.p.e)) } := by
  unfold softwareInterrupt; rw [State.enter_eq]

/-- R342: all that RTI's pulls do. -/
theorem State.returnFromInterrupt_eq (s : State) :
    s.returnFromInterrupt =
      { s with p := s.p.decode s.pull8.1, x := narrowed s.p.e (s.pull8.1.getLsbD 4) s.x,
               y := narrowed s.p.e (s.pull8.1.getLsbD 4) s.y, pc := s.pull8.2.pull16.1,
               pbr := if s.p.e then s.pbr else s.pull24.2.pull8.1,
               sp := if s.p.e then s.pull24.2.sp else s.pull24.2.pull8.2.sp,
               bus := if s.p.e then s.pull24.2.bus else s.pull24.2.pull8.2.bus } := by
  unfold State.returnFromInterrupt
  dsimp only
  rw [State.decodeP_eq]
  cases h : s.p.e <;> simp [State.pull24, State.pull16, State.pull8_eq, State.incS, State.page1, narrowed, h]

/-- R342. -/
theorem rti_eq (op : Byte) (s : State) :
    rti op s =
      { s with p := s.p.decode s.pull8.1, x := narrowed s.p.e (s.pull8.1.getLsbD 4) s.x,
               y := narrowed s.p.e (s.pull8.1.getLsbD 4) s.y, pc := s.returnFromInterrupt.pc,
               pbr := s.returnFromInterrupt.pbr, sp := s.returnFromInterrupt.sp, bus := s.returnFromInterrupt.bus,
               cyc := s.cyc + BitVec.ofNat 64 (s.cycles op (baseCycles op + nativePenalty s.p.e)) } := by
  unfold rti; rw [State.returnFromInterrupt_eq]

/-- R343, R344. -/
theorem stopIn_eq (op : Byte) (r : RunState) (s : State) :
    stopIn op r s =
      { s with run := r, pc := s.pc + 1#16, cyc := s.cyc + BitVec.ofNat 64 (s.cycles op (baseCycles op)) } := rfl

/-- R345. -/
theorem wdm_eq (op : Byte) (s : State) :
    wdm op s =
      { s with pc := s.pc + 2#16, cyc := s.cyc + BitVec.ofNat 64 (s.cycles op (baseCycles op)) } := rfl

/-- R346. -/
theorem nop_eq (op : Byte) (s : State) :
    nop op s =
      { s with pc := s.pc + 1#16, cyc := s.cyc + BitVec.ofNat 64 (s.cycles op (baseCycles op)) } := rfl

/-! ## Block moves -/

/-- R362: all that the loop does to the registers other than A, X and Y: nothing; and the bus it leaves. -/
theorem blockLoop_eq (up : Bool) (dst src : Byte) (n : Nat) (s : State) :
    blockLoop up dst src n s =
      { s with a := (blockLoop up dst src n s).a, x := (blockLoop up dst src n s).x, y := (blockLoop up dst src n s).y,
               bus := (blockLoop up dst src n s).bus } := by
  induction n generalizing s with
  | zero => rfl
  | succ n ih =>
    show blockLoop up dst src n (blockByte up dst src s) = _
    rw [ih]
    rfl

/-- R362, R475. -/
theorem blockMove_eq (op : Byte) (up : Bool) (dst src : Byte) (s : State) :
    blockMove op up dst src s =
      { s with a := (blockLoop up dst src (blockCount s) s).a, x := (blockLoop up dst src (blockCount s) s).x,
               y := (blockLoop up dst src (blockCount s) s).y, dbr := dst,
               bus := (blockLoop up dst src (blockCount s) s).bus, pc := s.pc + 3#16,
               cyc := s.cyc + BitVec.ofNat 64 (s.cycles op (7 * blockCount s)) } := by
  unfold blockMove; dsimp only; rw [blockLoop_eq]; rfl

end Sys2Proof.Machine
end

