-- ==== Sys2Proof/Tests/Slice0.lean ====
section
/-! SUPPORT. The model's own tests: ill-formed terms, decoding words written out from the encodings, the vectors of
95_test_vectors.md (their number is in each name), and for every obligation with hypotheses a state and operands that
meet them. -/

namespace Sys2Proof.Tests

open Sys2Proof.Machine

/-! ## Helpers -/

/-- The instruction that a byte list decodes to, where it is used up exactly. -/
def decoded (m8 x8 : Bool) (bs : List Byte) : Option Instr :=
  match decode m8 x8 bs with
  | .ok (i, []) => some i
  | _ => none

/-- The default start state of 95_test_vectors section 0. -/
def start : State := { State.reset with pc := 0x1000#16 }

/-- `s` with bytes in memory from address `n` on. -/
def put (n : Nat) (bs : List Byte) (s : State) : State :=
  { s with bus := { s.bus with mem := placeBytes (Addr.fromInteger n) 0 bs s.bus.mem } }

/-- What `f` shows of the state after one step. -/
def after {α : Type} (s : State) (f : State → α) : Option α :=
  match step s with
  | .next t => some (f t)
  | .fault _ => none
  | .refused _ => none

/-- The same, with `bs` placed at the program address first. -/
def runs {α : Type} (bs : List Byte) (s : State) (f : State → α) : Option α :=
  after (put s.programAddress.asInteger bs s) f

/-- What `f` shows of the state after two steps. -/
def after2 {α : Type} (s : State) (f : State → α) : Option α :=
  match step s with
  | .next t => after t f
  | .fault _ => none
  | .refused _ => none

/-- The byte of memory at `n`. -/
def byte (n : Nat) (s : State) : Byte := Memory.read s.bus.mem n

/-- The status flags as they are in native mode with the given widths. -/
def native (m x : Bool) : Flags := { Flags.reset with e := false, m := m, x := x }

/-! ## Ill-formed terms -/

/-- R113: with m8, `ORA #imm` takes one byte: 0x0100 does not fit; with 16 bits it does. -/
theorem test_wellFormed_oraImm :
    WellFormed true false (.oraImm 0x0100#16) = false ∧ WellFormed true false (.oraImm 0x00FF#16) = true ∧
    WellFormed false true (.oraImm 0x0100#16) = true := by
  decide

/-- R113: with m8, `AND #imm` takes one byte: 0x0100 does not fit; with 16 bits it does. -/
theorem test_wellFormed_andImm :
    WellFormed true false (.andImm 0x0100#16) = false ∧ WellFormed true false (.andImm 0x00FF#16) = true ∧
    WellFormed false true (.andImm 0x0100#16) = true := by
  decide

/-- R113: with m8, `EOR #imm` takes one byte: 0x0100 does not fit; with 16 bits it does. -/
theorem test_wellFormed_eorImm :
    WellFormed true false (.eorImm 0x0100#16) = false ∧ WellFormed true false (.eorImm 0x00FF#16) = true ∧
    WellFormed false true (.eorImm 0x0100#16) = true := by
  decide

/-- R113: with m8, `ADC #imm` takes one byte: 0x0100 does not fit; with 16 bits it does. -/
theorem test_wellFormed_adcImm :
    WellFormed true false (.adcImm 0x0100#16) = false ∧ WellFormed true false (.adcImm 0x00FF#16) = true ∧
    WellFormed false true (.adcImm 0x0100#16) = true := by
  decide

/-- R113: with m8, `BIT #imm` takes one byte: 0x0100 does not fit; with 16 bits it does. -/
theorem test_wellFormed_bitImm :
    WellFormed true false (.bitImm 0x0100#16) = false ∧ WellFormed true false (.bitImm 0x00FF#16) = true ∧
    WellFormed false true (.bitImm 0x0100#16) = true := by
  decide

/-- R113: with x8, `LDY #imm` takes one byte: 0x0100 does not fit; with 16 bits it does. -/
theorem test_wellFormed_ldyImm :
    WellFormed false true (.ldyImm 0x0100#16) = false ∧ WellFormed false true (.ldyImm 0x00FF#16) = true ∧
    WellFormed true false (.ldyImm 0x0100#16) = true := by
  decide

/-- R113: with x8, `LDX #imm` takes one byte: 0x0100 does not fit; with 16 bits it does. -/
theorem test_wellFormed_ldxImm :
    WellFormed false true (.ldxImm 0x0100#16) = false ∧ WellFormed false true (.ldxImm 0x00FF#16) = true ∧
    WellFormed true false (.ldxImm 0x0100#16) = true := by
  decide

/-- R113: with m8, `LDA #imm` takes one byte: 0x0100 does not fit; with 16 bits it does. -/
theorem test_wellFormed_ldaImm :
    WellFormed true false (.ldaImm 0x0100#16) = false ∧ WellFormed true false (.ldaImm 0x00FF#16) = true ∧
    WellFormed false true (.ldaImm 0x0100#16) = true := by
  decide

/-- R113: with x8, `CPY #imm` takes one byte: 0x0100 does not fit; with 16 bits it does. -/
theorem test_wellFormed_cpyImm :
    WellFormed false true (.cpyImm 0x0100#16) = false ∧ WellFormed false true (.cpyImm 0x00FF#16) = true ∧
    WellFormed true false (.cpyImm 0x0100#16) = true := by
  decide

/-- R113: with m8, `CMP #imm` takes one byte: 0x0100 does not fit; with 16 bits it does. -/
theorem test_wellFormed_cmpImm :
    WellFormed true false (.cmpImm 0x0100#16) = false ∧ WellFormed true false (.cmpImm 0x00FF#16) = true ∧
    WellFormed false true (.cmpImm 0x0100#16) = true := by
  decide

/-- R113: with x8, `CPX #imm` takes one byte: 0x0100 does not fit; with 16 bits it does. -/
theorem test_wellFormed_cpxImm :
    WellFormed false true (.cpxImm 0x0100#16) = false ∧ WellFormed false true (.cpxImm 0x00FF#16) = true ∧
    WellFormed true false (.cpxImm 0x0100#16) = true := by
  decide

/-- R113: with m8, `SBC #imm` takes one byte: 0x0100 does not fit; with 16 bits it does. -/
theorem test_wellFormed_sbcImm :
    WellFormed true false (.sbcImm 0x0100#16) = false ∧ WellFormed true false (.sbcImm 0x00FF#16) = true ∧
    WellFormed false true (.sbcImm 0x0100#16) = true := by
  decide

/-! ## Decoding: every row of the opcode map, from R112 and R117 -/

/-- R117: row 0x00. -/
theorem test_decode_row0 :
    List.map (decoded true true)
      [[0x00#8, 0x91#8], [0x01#8, 0x91#8], [0x02#8, 0x91#8], [0x03#8, 0x91#8], [0x04#8, 0x91#8], [0x05#8, 0x91#8],
       [0x06#8, 0x91#8], [0x07#8, 0x91#8], [0x08#8], [0x09#8, 0x91#8], [0x0A#8], [0x0B#8], [0x0C#8, 0x34#8, 0x92#8],
       [0x0D#8, 0x34#8, 0x92#8], [0x0E#8, 0x34#8, 0x92#8], [0x0F#8, 0x34#8, 0x92#8, 0x7E#8]] =
      [some (.brk 0x91#8), some (.oraDpXInd 0x91#8), some (.cop 0x91#8), some (.oraSr 0x91#8), some (.tsbDp 0x91#8),
       some (.oraDp 0x91#8), some (.aslDp 0x91#8), some (.oraDpIndL 0x91#8), some .php, some (.oraImm 0x0091#16),
       some .aslA, some .phd, some (.tsbAbs 0x9234#16), some (.oraAbs 0x9234#16), some (.aslAbs 0x9234#16),
       some (.oraAbsL ⟨0x7E#8, 0x9234#16⟩)] := by
  decide

/-- R117: row 0x10. -/
theorem test_decode_row1 :
    List.map (decoded true true)
      [[0x10#8, 0x91#8], [0x11#8, 0x91#8], [0x12#8, 0x91#8], [0x13#8, 0x91#8], [0x14#8, 0x91#8], [0x15#8, 0x91#8],
       [0x16#8, 0x91#8], [0x17#8, 0x91#8], [0x18#8], [0x19#8, 0x34#8, 0x92#8], [0x1A#8], [0x1B#8],
       [0x1C#8, 0x34#8, 0x92#8], [0x1D#8, 0x34#8, 0x92#8], [0x1E#8, 0x34#8, 0x92#8], [0x1F#8, 0x34#8, 0x92#8, 0x7E#8]] =
      [some (.bpl 0x91#8), some (.oraDpIndY 0x91#8), some (.oraDpInd 0x91#8), some (.oraSrIndY 0x91#8),
       some (.trbDp 0x91#8), some (.oraDpX 0x91#8), some (.aslDpX 0x91#8), some (.oraDpIndLY 0x91#8), some .clc,
       some (.oraAbsY 0x9234#16), some .incA, some .tcs, some (.trbAbs 0x9234#16), some (.oraAbsX 0x9234#16),
       some (.aslAbsX 0x9234#16), some (.oraAbsLX ⟨0x7E#8, 0x9234#16⟩)] := by
  decide

/-- R117: row 0x20. -/
theorem test_decode_row2 :
    List.map (decoded true true)
      [[0x20#8, 0x34#8, 0x92#8], [0x21#8, 0x91#8], [0x22#8, 0x34#8, 0x92#8, 0x7E#8], [0x23#8, 0x91#8],
       [0x24#8, 0x91#8], [0x25#8, 0x91#8], [0x26#8, 0x91#8], [0x27#8, 0x91#8], [0x28#8], [0x29#8, 0x91#8], [0x2A#8],
       [0x2B#8], [0x2C#8, 0x34#8, 0x92#8], [0x2D#8, 0x34#8, 0x92#8], [0x2E#8, 0x34#8, 0x92#8],
       [0x2F#8, 0x34#8, 0x92#8, 0x7E#8]] =
      [some (.jsrAbs 0x9234#16), some (.andDpXInd 0x91#8), some (.jslAbsL ⟨0x7E#8, 0x9234#16⟩), some (.andSr 0x91#8),
       some (.bitDp 0x91#8), some (.andDp 0x91#8), some (.rolDp 0x91#8), some (.andDpIndL 0x91#8), some .plp,
       some (.andImm 0x0091#16), some .rolA, some .pld, some (.bitAbs 0x9234#16), some (.andAbs 0x9234#16),
       some (.rolAbs 0x9234#16), some (.andAbsL ⟨0x7E#8, 0x9234#16⟩)] := by
  decide

/-- R117: row 0x30. -/
theorem test_decode_row3 :
    List.map (decoded true true)
      [[0x30#8, 0x91#8], [0x31#8, 0x91#8], [0x32#8, 0x91#8], [0x33#8, 0x91#8], [0x34#8, 0x91#8], [0x35#8, 0x91#8],
       [0x36#8, 0x91#8], [0x37#8, 0x91#8], [0x38#8], [0x39#8, 0x34#8, 0x92#8], [0x3A#8], [0x3B#8],
       [0x3C#8, 0x34#8, 0x92#8], [0x3D#8, 0x34#8, 0x92#8], [0x3E#8, 0x34#8, 0x92#8], [0x3F#8, 0x34#8, 0x92#8, 0x7E#8]] =
      [some (.bmi 0x91#8), some (.andDpIndY 0x91#8), some (.andDpInd 0x91#8), some (.andSrIndY 0x91#8),
       some (.bitDpX 0x91#8), some (.andDpX 0x91#8), some (.rolDpX 0x91#8), some (.andDpIndLY 0x91#8), some .sec,
       some (.andAbsY 0x9234#16), some .decA, some .tsc, some (.bitAbsX 0x9234#16), some (.andAbsX 0x9234#16),
       some (.rolAbsX 0x9234#16), some (.andAbsLX ⟨0x7E#8, 0x9234#16⟩)] := by
  decide

/-- R117: row 0x40. -/
theorem test_decode_row4 :
    List.map (decoded true true)
      [[0x40#8], [0x41#8, 0x91#8], [0x42#8, 0x91#8], [0x43#8, 0x91#8], [0x44#8, 0x7E#8, 0x01#8], [0x45#8, 0x91#8],
       [0x46#8, 0x91#8], [0x47#8, 0x91#8], [0x48#8], [0x49#8, 0x91#8], [0x4A#8], [0x4B#8], [0x4C#8, 0x34#8, 0x92#8],
       [0x4D#8, 0x34#8, 0x92#8], [0x4E#8, 0x34#8, 0x92#8], [0x4F#8, 0x34#8, 0x92#8, 0x7E#8]] =
      [some .rti, some (.eorDpXInd 0x91#8), some (.wdm 0x91#8), some (.eorSr 0x91#8), some (.mvp 0x7E#8 0x01#8),
       some (.eorDp 0x91#8), some (.lsrDp 0x91#8), some (.eorDpIndL 0x91#8), some .pha, some (.eorImm 0x0091#16),
       some .lsrA, some .phk, some (.jmpAbs 0x9234#16), some (.eorAbs 0x9234#16), some (.lsrAbs 0x9234#16),
       some (.eorAbsL ⟨0x7E#8, 0x9234#16⟩)] := by
  decide

/-- R117: row 0x50. -/
theorem test_decode_row5 :
    List.map (decoded true true)
      [[0x50#8, 0x91#8], [0x51#8, 0x91#8], [0x52#8, 0x91#8], [0x53#8, 0x91#8], [0x54#8, 0x7E#8, 0x01#8],
       [0x55#8, 0x91#8], [0x56#8, 0x91#8], [0x57#8, 0x91#8], [0x58#8], [0x59#8, 0x34#8, 0x92#8], [0x5A#8], [0x5B#8],
       [0x5C#8, 0x34#8, 0x92#8, 0x7E#8], [0x5D#8, 0x34#8, 0x92#8], [0x5E#8, 0x34#8, 0x92#8],
       [0x5F#8, 0x34#8, 0x92#8, 0x7E#8]] =
      [some (.bvc 0x91#8), some (.eorDpIndY 0x91#8), some (.eorDpInd 0x91#8), some (.eorSrIndY 0x91#8),
       some (.mvn 0x7E#8 0x01#8), some (.eorDpX 0x91#8), some (.lsrDpX 0x91#8), some (.eorDpIndLY 0x91#8), some .cli,
       some (.eorAbsY 0x9234#16), some .phy, some .tcd, some (.jmlAbsL ⟨0x7E#8, 0x9234#16⟩),
       some (.eorAbsX 0x9234#16), some (.lsrAbsX 0x9234#16), some (.eorAbsLX ⟨0x7E#8, 0x9234#16⟩)] := by
  decide

/-- R117: row 0x60. -/
theorem test_decode_row6 :
    List.map (decoded true true)
      [[0x60#8], [0x61#8, 0x91#8], [0x62#8, 0x34#8, 0x92#8], [0x63#8, 0x91#8], [0x64#8, 0x91#8], [0x65#8, 0x91#8],
       [0x66#8, 0x91#8], [0x67#8, 0x91#8], [0x68#8], [0x69#8, 0x91#8], [0x6A#8], [0x6B#8], [0x6C#8, 0x34#8, 0x92#8],
       [0x6D#8, 0x34#8, 0x92#8], [0x6E#8, 0x34#8, 0x92#8], [0x6F#8, 0x34#8, 0x92#8, 0x7E#8]] =
      [some .rts, some (.adcDpXInd 0x91#8), some (.per 0x9234#16), some (.adcSr 0x91#8), some (.stzDp 0x91#8),
       some (.adcDp 0x91#8), some (.rorDp 0x91#8), some (.adcDpIndL 0x91#8), some .pla, some (.adcImm 0x0091#16),
       some .rorA, some .rtl, some (.jmpAbsInd 0x9234#16), some (.adcAbs 0x9234#16), some (.rorAbs 0x9234#16),
       some (.adcAbsL ⟨0x7E#8, 0x9234#16⟩)] := by
  decide

/-- R117: row 0x70. -/
theorem test_decode_row7 :
    List.map (decoded true true)
      [[0x70#8, 0x91#8], [0x71#8, 0x91#8], [0x72#8, 0x91#8], [0x73#8, 0x91#8], [0x74#8, 0x91#8], [0x75#8, 0x91#8],
       [0x76#8, 0x91#8], [0x77#8, 0x91#8], [0x78#8], [0x79#8, 0x34#8, 0x92#8], [0x7A#8], [0x7B#8],
       [0x7C#8, 0x34#8, 0x92#8], [0x7D#8, 0x34#8, 0x92#8], [0x7E#8, 0x34#8, 0x92#8], [0x7F#8, 0x34#8, 0x92#8, 0x7E#8]] =
      [some (.bvs 0x91#8), some (.adcDpIndY 0x91#8), some (.adcDpInd 0x91#8), some (.adcSrIndY 0x91#8),
       some (.stzDpX 0x91#8), some (.adcDpX 0x91#8), some (.rorDpX 0x91#8), some (.adcDpIndLY 0x91#8), some .sei,
       some (.adcAbsY 0x9234#16), some .ply, some .tdc, some (.jmpAbsXInd 0x9234#16), some (.adcAbsX 0x9234#16),
       some (.rorAbsX 0x9234#16), some (.adcAbsLX ⟨0x7E#8, 0x9234#16⟩)] := by
  decide

/-- R117: row 0x80. -/
theorem test_decode_row8 :
    List.map (decoded true true)
      [[0x80#8, 0x91#8], [0x81#8, 0x91#8], [0x82#8, 0x34#8, 0x92#8], [0x83#8, 0x91#8], [0x84#8, 0x91#8],
       [0x85#8, 0x91#8], [0x86#8, 0x91#8], [0x87#8, 0x91#8], [0x88#8], [0x89#8, 0x91#8], [0x8A#8], [0x8B#8],
       [0x8C#8, 0x34#8, 0x92#8], [0x8D#8, 0x34#8, 0x92#8], [0x8E#8, 0x34#8, 0x92#8], [0x8F#8, 0x34#8, 0x92#8, 0x7E#8]] =
      [some (.bra 0x91#8), some (.staDpXInd 0x91#8), some (.brl 0x9234#16), some (.staSr 0x91#8),
       some (.styDp 0x91#8), some (.staDp 0x91#8), some (.stxDp 0x91#8), some (.staDpIndL 0x91#8), some .dey,
       some (.bitImm 0x0091#16), some .txa, some .phb, some (.styAbs 0x9234#16), some (.staAbs 0x9234#16),
       some (.stxAbs 0x9234#16), some (.staAbsL ⟨0x7E#8, 0x9234#16⟩)] := by
  decide

/-- R117: row 0x90. -/
theorem test_decode_row9 :
    List.map (decoded true true)
      [[0x90#8, 0x91#8], [0x91#8, 0x91#8], [0x92#8, 0x91#8], [0x93#8, 0x91#8], [0x94#8, 0x91#8], [0x95#8, 0x91#8],
       [0x96#8, 0x91#8], [0x97#8, 0x91#8], [0x98#8], [0x99#8, 0x34#8, 0x92#8], [0x9A#8], [0x9B#8],
       [0x9C#8, 0x34#8, 0x92#8], [0x9D#8, 0x34#8, 0x92#8], [0x9E#8, 0x34#8, 0x92#8], [0x9F#8, 0x34#8, 0x92#8, 0x7E#8]] =
      [some (.bcc 0x91#8), some (.staDpIndY 0x91#8), some (.staDpInd 0x91#8), some (.staSrIndY 0x91#8),
       some (.styDpX 0x91#8), some (.staDpX 0x91#8), some (.stxDpY 0x91#8), some (.staDpIndLY 0x91#8), some .tya,
       some (.staAbsY 0x9234#16), some .txs, some .txy, some (.stzAbs 0x9234#16), some (.staAbsX 0x9234#16),
       some (.stzAbsX 0x9234#16), some (.staAbsLX ⟨0x7E#8, 0x9234#16⟩)] := by
  decide

/-- R117: row 0xA0. -/
theorem test_decode_rowA :
    List.map (decoded true true)
      [[0xA0#8, 0x91#8], [0xA1#8, 0x91#8], [0xA2#8, 0x91#8], [0xA3#8, 0x91#8], [0xA4#8, 0x91#8], [0xA5#8, 0x91#8],
       [0xA6#8, 0x91#8], [0xA7#8, 0x91#8], [0xA8#8], [0xA9#8, 0x91#8], [0xAA#8], [0xAB#8], [0xAC#8, 0x34#8, 0x92#8],
       [0xAD#8, 0x34#8, 0x92#8], [0xAE#8, 0x34#8, 0x92#8], [0xAF#8, 0x34#8, 0x92#8, 0x7E#8]] =
      [some (.ldyImm 0x0091#16), some (.ldaDpXInd 0x91#8), some (.ldxImm 0x0091#16), some (.ldaSr 0x91#8),
       some (.ldyDp 0x91#8), some (.ldaDp 0x91#8), some (.ldxDp 0x91#8), some (.ldaDpIndL 0x91#8), some .tay,
       some (.ldaImm 0x0091#16), some .tax, some .plb, some (.ldyAbs 0x9234#16), some (.ldaAbs 0x9234#16),
       some (.ldxAbs 0x9234#16), some (.ldaAbsL ⟨0x7E#8, 0x9234#16⟩)] := by
  decide

/-- R117: row 0xB0. -/
theorem test_decode_rowB :
    List.map (decoded true true)
      [[0xB0#8, 0x91#8], [0xB1#8, 0x91#8], [0xB2#8, 0x91#8], [0xB3#8, 0x91#8], [0xB4#8, 0x91#8], [0xB5#8, 0x91#8],
       [0xB6#8, 0x91#8], [0xB7#8, 0x91#8], [0xB8#8], [0xB9#8, 0x34#8, 0x92#8], [0xBA#8], [0xBB#8],
       [0xBC#8, 0x34#8, 0x92#8], [0xBD#8, 0x34#8, 0x92#8], [0xBE#8, 0x34#8, 0x92#8], [0xBF#8, 0x34#8, 0x92#8, 0x7E#8]] =
      [some (.bcs 0x91#8), some (.ldaDpIndY 0x91#8), some (.ldaDpInd 0x91#8), some (.ldaSrIndY 0x91#8),
       some (.ldyDpX 0x91#8), some (.ldaDpX 0x91#8), some (.ldxDpY 0x91#8), some (.ldaDpIndLY 0x91#8), some .clv,
       some (.ldaAbsY 0x9234#16), some .tsx, some .tyx, some (.ldyAbsX 0x9234#16), some (.ldaAbsX 0x9234#16),
       some (.ldxAbsY 0x9234#16), some (.ldaAbsLX ⟨0x7E#8, 0x9234#16⟩)] := by
  decide

/-- R117: row 0xC0. -/
theorem test_decode_rowC :
    List.map (decoded true true)
      [[0xC0#8, 0x91#8], [0xC1#8, 0x91#8], [0xC2#8, 0x91#8], [0xC3#8, 0x91#8], [0xC4#8, 0x91#8], [0xC5#8, 0x91#8],
       [0xC6#8, 0x91#8], [0xC7#8, 0x91#8], [0xC8#8], [0xC9#8, 0x91#8], [0xCA#8], [0xCB#8], [0xCC#8, 0x34#8, 0x92#8],
       [0xCD#8, 0x34#8, 0x92#8], [0xCE#8, 0x34#8, 0x92#8], [0xCF#8, 0x34#8, 0x92#8, 0x7E#8]] =
      [some (.cpyImm 0x0091#16), some (.cmpDpXInd 0x91#8), some (.rep 0x91#8), some (.cmpSr 0x91#8),
       some (.cpyDp 0x91#8), some (.cmpDp 0x91#8), some (.decDp 0x91#8), some (.cmpDpIndL 0x91#8), some .iny,
       some (.cmpImm 0x0091#16), some .dex, some .wai, some (.cpyAbs 0x9234#16), some (.cmpAbs 0x9234#16),
       some (.decAbs 0x9234#16), some (.cmpAbsL ⟨0x7E#8, 0x9234#16⟩)] := by
  decide

/-- R117: row 0xD0. -/
theorem test_decode_rowD :
    List.map (decoded true true)
      [[0xD0#8, 0x91#8], [0xD1#8, 0x91#8], [0xD2#8, 0x91#8], [0xD3#8, 0x91#8], [0xD4#8, 0x91#8], [0xD5#8, 0x91#8],
       [0xD6#8, 0x91#8], [0xD7#8, 0x91#8], [0xD8#8], [0xD9#8, 0x34#8, 0x92#8], [0xDA#8], [0xDB#8],
       [0xDC#8, 0x34#8, 0x92#8], [0xDD#8, 0x34#8, 0x92#8], [0xDE#8, 0x34#8, 0x92#8], [0xDF#8, 0x34#8, 0x92#8, 0x7E#8]] =
      [some (.bne 0x91#8), some (.cmpDpIndY 0x91#8), some (.cmpDpInd 0x91#8), some (.cmpSrIndY 0x91#8),
       some (.pei 0x91#8), some (.cmpDpX 0x91#8), some (.decDpX 0x91#8), some (.cmpDpIndLY 0x91#8), some .cld,
       some (.cmpAbsY 0x9234#16), some .phx, some .stp, some (.jmlAbsIndL 0x9234#16), some (.cmpAbsX 0x9234#16),
       some (.decAbsX 0x9234#16), some (.cmpAbsLX ⟨0x7E#8, 0x9234#16⟩)] := by
  decide

/-- R117: row 0xE0. -/
theorem test_decode_rowE :
    List.map (decoded true true)
      [[0xE0#8, 0x91#8], [0xE1#8, 0x91#8], [0xE2#8, 0x91#8], [0xE3#8, 0x91#8], [0xE4#8, 0x91#8], [0xE5#8, 0x91#8],
       [0xE6#8, 0x91#8], [0xE7#8, 0x91#8], [0xE8#8], [0xE9#8, 0x91#8], [0xEA#8], [0xEB#8], [0xEC#8, 0x34#8, 0x92#8],
       [0xED#8, 0x34#8, 0x92#8], [0xEE#8, 0x34#8, 0x92#8], [0xEF#8, 0x34#8, 0x92#8, 0x7E#8]] =
      [some (.cpxImm 0x0091#16), some (.sbcDpXInd 0x91#8), some (.sep 0x91#8), some (.sbcSr 0x91#8),
       some (.cpxDp 0x91#8), some (.sbcDp 0x91#8), some (.incDp 0x91#8), some (.sbcDpIndL 0x91#8), some .inx,
       some (.sbcImm 0x0091#16), some .nop, some .xba, some (.cpxAbs 0x9234#16), some (.sbcAbs 0x9234#16),
       some (.incAbs 0x9234#16), some (.sbcAbsL ⟨0x7E#8, 0x9234#16⟩)] := by
  decide

/-- R117: row 0xF0. -/
theorem test_decode_rowF :
    List.map (decoded true true)
      [[0xF0#8, 0x91#8], [0xF1#8, 0x91#8], [0xF2#8, 0x91#8], [0xF3#8, 0x91#8], [0xF4#8, 0x34#8, 0x92#8],
       [0xF5#8, 0x91#8], [0xF6#8, 0x91#8], [0xF7#8, 0x91#8], [0xF8#8], [0xF9#8, 0x34#8, 0x92#8], [0xFA#8], [0xFB#8],
       [0xFC#8, 0x34#8, 0x92#8], [0xFD#8, 0x34#8, 0x92#8], [0xFE#8, 0x34#8, 0x92#8], [0xFF#8, 0x34#8, 0x92#8, 0x7E#8]] =
      [some (.beq 0x91#8), some (.sbcDpIndY 0x91#8), some (.sbcDpInd 0x91#8), some (.sbcSrIndY 0x91#8),
       some (.pea 0x9234#16), some (.sbcDpX 0x91#8), some (.incDpX 0x91#8), some (.sbcDpIndLY 0x91#8), some .sed,
       some (.sbcAbsY 0x9234#16), some .plx, some .xce, some (.jsrAbsXInd 0x9234#16), some (.sbcAbsX 0x9234#16),
       some (.incAbsX 0x9234#16), some (.sbcAbsLX ⟨0x7E#8, 0x9234#16⟩)] := by
  decide

/-- R112, R114: the immediates of variable width with 16 bits, low byte first. -/
theorem test_decode_wide :
    List.map (decoded false false)
      [[0x09#8, 0x34#8, 0x12#8], [0x29#8, 0x34#8, 0x12#8], [0x49#8, 0x34#8, 0x12#8], [0x69#8, 0x34#8, 0x12#8],
       [0x89#8, 0x34#8, 0x12#8], [0xA0#8, 0x34#8, 0x12#8], [0xA2#8, 0x34#8, 0x12#8], [0xA9#8, 0x34#8, 0x12#8],
       [0xC0#8, 0x34#8, 0x12#8], [0xC9#8, 0x34#8, 0x12#8], [0xE0#8, 0x34#8, 0x12#8], [0xE9#8, 0x34#8, 0x12#8]] =
      [some (.oraImm 0x1234#16), some (.andImm 0x1234#16), some (.eorImm 0x1234#16), some (.adcImm 0x1234#16),
       some (.bitImm 0x1234#16), some (.ldyImm 0x1234#16), some (.ldxImm 0x1234#16), some (.ldaImm 0x1234#16),
       some (.cpyImm 0x1234#16), some (.cmpImm 0x1234#16), some (.cpxImm 0x1234#16), some (.sbcImm 0x1234#16)] := by
  decide

/-- R110: too few bytes are refused by name. -/
theorem test_decode_truncated :
    decode true true [] = .error .noOpcode ∧ decode true true [0x54#8, 0x7E#8] = .error (.truncated 0x54#8) ∧
      decode true false [0xA2#8, 0x34#8] = .error (.truncated 0xA2#8) ∧
      decode true true [0x5C#8, 0x00#8, 0x00#8] = .error (.truncated 0x5C#8) := by
  refine ⟨rfl, rfl, rfl, rfl⟩

/-- Table words: bit 0 is the least significant bit of the opcode byte; the bits above `nbits` are 0. -/
theorem test_decodeTableWord :
    decodeTableWord 24 0x92348D = some (.staAbs 0x9234#16) ∧ decodeTableWord 8 0xFF8D = some (.staAbs 0x0000#16) ∧
      decodeTableWord 32 0x7E9234AF = some (.ldaAbsL ⟨0x7E#8, 0x9234#16⟩) := by
  decide

/-- The word of a row, placed by `withFetchWord`, is what the first step after reset runs. -/
theorem test_withFetchWord :
    after (State.reset.withFetchWord 16 0x42A9) (fun t => (t.a, t.pc, t.cyc)) = some (0x0042#16, 0x0002#16, 2#64) ∧
      after (State.reset.withFetchWord 8 0x8D) (fun t => (t.pc, t.cyc)) = some (0x0003#16, 4#64) := by
  decide

/-! ## The vectors of 95_test_vectors section 2, one step each -/

/-- V1, `LDA dp` (R142, R141). -/
theorem test_V1_ldaDp :
    runs [0xA5#8, 0x34#8]
      (put 0x001234 [0x77#8] { start with dp := 0x1200#16, p := native true true })
      (fun t => ([t.a, t.pc], t.cyc)) =
      some ([0x0077#16, 0x1002#16], 3#64) := by
  decide

/-- V2, `LDA dp` (R141, C4). -/
theorem test_V2_ldaDp :
    runs [0xA5#8, 0x34#8]
      (put 0x001234 [0x77#8] (put 0x000034 [0x55#8] { start with dp := 0x1200#16 }))
      (fun t => ([t.a, t.pc], t.cyc)) =
      some ([0x0055#16, 0x1002#16], 3#64) := by
  decide

/-- V3, `LDA dp,X` (R143, R141). -/
theorem test_V3_ldaDpX :
    runs [0xB5#8, 0xFF#8]
      (put 0x000000 [0x11#8] (put 0x000100 [0x99#8] { start with x := 0x0001#16 }))
      (fun t => ([t.a, t.pc], t.p.n, t.cyc)) =
      some ([0x0099#16, 0x1002#16], true, 4#64) := by
  decide

/-- V4, `LDA dp,X` (R143). -/
theorem test_V4_ldaDpX :
    runs [0xB5#8, 0x05#8]
      (put 0x000015 [0x3C#8] { start with x := 0x0020#16, dp := 0xFFF0#16, p := native true true })
      (fun t => ([t.a, t.pc], t.cyc)) =
      some ([0x003C#16, 0x1002#16], 5#64) := by
  decide

/-- V5, `LDA abs` (R136). -/
theorem test_V5_ldaAbs :
    runs [0xAD#8, 0x00#8, 0x20#8]
      (put 0x7E2000 [0x5A#8] { start with dbr := 0x7E#8 })
      (fun t => ([t.a, t.pc], t.cyc)) =
      some ([0x005A#16, 0x1003#16], 4#64) := by
  decide

/-- V6, `LDA abs,X` (R137). -/
theorem test_V6_ldaAbsX :
    runs [0xBD#8, 0xFF#8, 0xFF#8]
      (put 0x130000 [0x42#8] { start with x := 0x0001#16, dbr := 0x12#8 })
      (fun t => ([t.a, t.pc], t.cyc)) =
      some ([0x0042#16, 0x1003#16], 5#64) := by
  decide

/-- V7, `LDA long` (R139). -/
theorem test_V7_ldaAbsL :
    runs [0xAF#8, 0x56#8, 0x34#8, 0x12#8] (put 0x123456 [0x81#8] start) (fun t => ([t.a, t.pc], t.p.n, t.cyc)) =
      some ([0x0081#16, 0x1004#16], true, 5#64) := by
  decide

/-- V8, `LDA long,X` (R140). -/
theorem test_V8_ldaAbsLX :
    runs [0xBF#8, 0xF8#8, 0xFF#8, 0x12#8]
      (put 0x130008 [0x01#8] { start with x := 0x0010#16 })
      (fun t => ([t.a, t.pc], t.cyc)) =
      some ([0x0001#16, 0x1004#16], 5#64) := by
  decide

/-- V9, `LDA (dp)` (R145). -/
theorem test_V9_ldaDpInd :
    runs [0xB2#8, 0x20#8]
      (put 0x023000 [0xE1#8] (put 0x000020 [0x00#8, 0x30#8] { start with dbr := 0x02#8 }))
      (fun t => ([t.a, t.pc], t.p.n, t.cyc)) =
      some ([0x00E1#16, 0x1002#16], true, 5#64) := by
  decide

/-- V10, `LDA [dp]` (R146). -/
theorem test_V10_ldaDpIndL :
    runs [0xA7#8, 0x20#8]
      (put 0x053000 [0x0F#8] (put 0x000020 [0x00#8, 0x30#8, 0x05#8] start))
      (fun t => ([t.a, t.pc], t.cyc)) =
      some ([0x000F#16, 0x1002#16], 6#64) := by
  decide

/-- V11, `LDA (dp,X)` (R147). -/
theorem test_V11_ldaDpXInd :
    runs [0xA1#8, 0x20#8]
      (put 0x004000 [0x22#8] (put 0x000024 [0x00#8, 0x40#8] { start with x := 0x0004#16 }))
      (fun t => ([t.a, t.pc], t.cyc)) =
      some ([0x0022#16, 0x1002#16], 6#64) := by
  decide

/-- V12, `LDA (dp),Y` (R148). -/
theorem test_V12_ldaDpIndY :
    runs [0xB1#8, 0x20#8]
      (put 0x012108 [0x33#8] (put 0x000020 [0xF8#8, 0x20#8] { start with y := 0x0010#16, dbr := 0x01#8 }))
      (fun t => ([t.a, t.pc], t.cyc)) =
      some ([0x0033#16, 0x1002#16], 6#64) := by
  decide

/-- V13, `LDA [dp],Y` (R149). -/
theorem test_V13_ldaDpIndLY :
    runs [0xB7#8, 0x20#8]
      (put 0x060001 [0x44#8] (put 0x000020 [0xFF#8, 0xFF#8, 0x05#8] { start with y := 0x0002#16 }))
      (fun t => ([t.a, t.pc], t.cyc)) =
      some ([0x0044#16, 0x1002#16], 6#64) := by
  decide

/-- V14, `LDA sr,S` (R150). -/
theorem test_V14_ldaSr :
    runs [0xA3#8, 0x03#8] (put 0x0001F3 [0x66#8] { start with sp := 0x01F0#16 }) (fun t => ([t.a, t.pc], t.cyc)) =
      some ([0x0066#16, 0x1002#16], 4#64) := by
  decide

/-- V15, `LDA (sr,S),Y` (R151). -/
theorem test_V15_ldaSrIndY :
    runs [0xB3#8, 0x02#8]
      (put 0x035001 [0x6E#8] (put 0x0001F2 [0x00#8, 0x50#8]
        { start with y := 0x0001#16, sp := 0x01F0#16, dbr := 0x03#8 }))
      (fun t => ([t.a, t.pc], t.cyc)) =
      some ([0x006E#16, 0x1002#16], 7#64) := by
  decide

/-- V16, `LDA abs` (R84, D2). -/
theorem test_V16_ldaAbs :
    runs [0xAD#8, 0xFF#8, 0xFF#8]
      (put 0x010000 [0x12#8] (put 0x01FFFF [0x34#8] { start with dbr := 0x01#8, p := native false true }))
      (fun t => ([t.a, t.pc], t.cyc)) =
      some ([0x1234#16, 0x1003#16], 5#64) := by
  decide

/-- V18, `LDA #imm` (R170). -/
theorem test_V18_ldaImm :
    runs [0xA9#8, 0x00#8, 0x80#8]
      { start with a := 0x1234#16, p := native false true }
      (fun t => ([t.a, t.pc], t.p.n, t.cyc)) =
      some ([0x8000#16, 0x1003#16], true, 3#64) := by
  decide

/-- V19, `LDA #imm` (R170). -/
theorem test_V19_ldaImm :
    runs [0xA9#8, 0x00#8] { start with a := 0xAB00#16 } (fun t => (t.pc, t.p.z, t.cyc)) =
      some (0x1002#16, true, 2#64) := by
  decide

/-- V20, `LDX #imm` (R171). -/
theorem test_V20_ldxImm :
    runs [0xA2#8, 0xFF#8, 0x7F#8] { start with p := native true false } (fun t => ([t.x, t.pc], t.cyc)) =
      some ([0x7FFF#16, 0x1003#16], 3#64) := by
  decide

/-- V21, `LDY #imm` (R172). -/
theorem test_V21_ldyImm :
    runs [0xA0#8, 0x80#8] start (fun t => ([t.y, t.pc], t.p.n, t.cyc)) =
      some ([0x0080#16, 0x1002#16], true, 2#64) := by
  decide

/-- V22, `STA abs` (R173). -/
theorem test_V22_staAbs :
    runs [0x8D#8, 0x00#8, 0x30#8]
      { start with a := 0xBEEF#16, p := native false true }
      (fun t => (t.pc, [0x003000, 0x003001].map (byte · t), t.cyc)) =
      some (0x1003#16, [0xEF#8, 0xBE#8], 5#64) := by
  decide

/-- V23, `STX dp` (R174). -/
theorem test_V23_stxDp :
    runs [0x86#8, 0x40#8]
      { start with x := 0x1234#16, p := native true false }
      (fun t => (t.pc, [0x000040, 0x000041].map (byte · t), t.cyc)) =
      some (0x1002#16, [0x34#8, 0x12#8], 4#64) := by
  decide

/-- V24, `STY abs` (R175). -/
theorem test_V24_styAbs :
    runs [0x8C#8, 0x00#8, 0x30#8] { start with y := 0x009A#16 } (fun t => (t.pc, byte 0x003000 t, t.cyc)) =
      some (0x1003#16, 0x9A#8, 4#64) := by
  decide

/-- V25, `STZ abs` (R176). -/
theorem test_V25_stzAbs :
    runs [0x9C#8, 0x00#8, 0x30#8]
      { start with p := native false true }
      (fun t => (t.pc, [0x003000, 0x003001].map (byte · t), t.cyc)) =
      some (0x1003#16, [0x00#8, 0x00#8], 5#64) := by
  decide

/-- V26, `STZ dp,X` (R176). -/
theorem test_V26_stzDpX :
    runs [0x74#8, 0x10#8]
      (put 0x000012 [0xFF#8] { start with x := 0x0002#16 })
      (fun t => (t.pc, byte 0x000012 t, t.cyc)) =
      some (0x1002#16, 0x00#8, 4#64) := by
  decide

/-- V33, `ADC #imm` (R196, R192, R191). -/
theorem test_V33_adcImm :
    runs [0x69#8, 0x10#8]
      { start with a := 0x0079#16, p := { Flags.reset with d := true } }
      (fun t => ([t.a, t.pc], [t.p.n, t.p.v], t.cyc)) =
      some ([0x0089#16, 0x1002#16], [true, true], 2#64) := by
  decide

/-- V35, `ADC #imm` (R196, R194). -/
theorem test_V35_adcImm :
    runs [0x69#8, 0x01#8, 0x00#8]
      { start with a := 0x9999#16, p := { native false true with d := true } }
      (fun t => ([t.a, t.pc], [t.p.z, t.p.c], t.cyc)) =
      some ([0x0000#16, 0x1003#16], [true, true], 3#64) := by
  decide

/-- V37, `SBC #imm` (R197). -/
theorem test_V37_sbcImm :
    runs [0xE9#8, 0xB0#8]
      { start with a := 0x0050#16, p := { Flags.reset with c := true } }
      (fun t => ([t.a, t.pc], [t.p.n, t.p.v, t.p.c], t.cyc)) =
      some ([0x00A0#16, 0x1002#16], [true, true, false], 2#64) := by
  decide

/-- V41, `SBC #imm` (R197, R195). -/
theorem test_V41_sbcImm :
    runs [0xE9#8, 0x01#8, 0x00#8]
      { start with a := 0x1000#16, p := { native false true with d := true, c := true } }
      (fun t => ([t.a, t.pc], t.cyc)) =
      some ([0x0999#16, 0x1003#16], 3#64) := by
  decide

/-- V42, `AND #imm` (R198). -/
theorem test_V42_andImm :
    runs [0x29#8, 0x3C#8] { start with a := 0x00F0#16 } (fun t => ([t.a, t.pc], t.cyc)) =
      some ([0x0030#16, 0x1002#16], 2#64) := by
  decide

/-- V43, `ORA #imm` (R199). -/
theorem test_V43_oraImm :
    runs [0x09#8, 0x80#8] { start with a := 0x0001#16 } (fun t => ([t.a, t.pc], t.p.n, t.cyc)) =
      some ([0x0081#16, 0x1002#16], true, 2#64) := by
  decide

/-- V44, `EOR #imm` (R200). -/
theorem test_V44_eorImm :
    runs [0x49#8, 0xFF#8, 0xFF#8]
      { start with a := 0xFFFF#16, p := native false true }
      (fun t => ([t.a, t.pc], t.p.z, t.cyc)) =
      some ([0x0000#16, 0x1003#16], true, 3#64) := by
  decide

/-- V45, `BIT dp` (R201). -/
theorem test_V45_bitDp :
    runs [0x24#8, 0x10#8]
      (put 0x000010 [0xC0#8] { start with a := 0x0001#16 })
      (fun t => (t.pc, [t.p.n, t.p.v, t.p.z], t.cyc)) =
      some (0x1002#16, [true, true, true], 3#64) := by
  decide

/-- V46, `BIT #imm` (R201). -/
theorem test_V46_bitImm :
    runs [0x89#8, 0x01#8]
      { start with a := 0x0001#16, p := { Flags.reset with n := true, v := true } }
      (fun t => (t.pc, t.cyc)) =
      some (0x1002#16, 2#64) := by
  decide

/-- V47, `BIT dp` (R201). -/
theorem test_V47_bitDp :
    runs [0x24#8, 0x10#8]
      (put 0x000010 [0x00#8, 0x40#8] { start with a := 0x0001#16, p := native false true })
      (fun t => (t.pc, [t.p.v, t.p.z], t.cyc)) =
      some (0x1002#16, [true, true], 4#64) := by
  decide

/-- V48, `CMP #imm` (R202, R213). -/
theorem test_V48_cmpImm :
    runs [0xC9#8, 0x41#8] { start with a := 0x0040#16 } (fun t => (t.pc, t.p.n, t.cyc)) =
      some (0x1002#16, true, 2#64) := by
  decide

/-- V49, `CMP #imm` (R202, R213). -/
theorem test_V49_cmpImm :
    runs [0xC9#8, 0x40#8]
      { start with a := 0x0040#16, p := { Flags.reset with v := true, d := true } }
      (fun t => (t.pc, [t.p.z, t.p.c], t.cyc)) =
      some (0x1002#16, [true, true], 2#64) := by
  decide

/-- V50, `CPX #imm` (R203). -/
theorem test_V50_cpxImm :
    runs [0xE0#8, 0x00#8, 0x10#8]
      { start with x := 0x1000#16, p := native true false }
      (fun t => (t.pc, [t.p.z, t.p.c], t.cyc)) =
      some (0x1003#16, [true, true], 3#64) := by
  decide

/-- V51, `CPY #imm` (R204). -/
theorem test_V51_cpyImm :
    runs [0xC0#8, 0x03#8] { start with y := 0x0005#16 } (fun t => (t.pc, t.p.c, t.cyc)) =
      some (0x1002#16, true, 2#64) := by
  decide

/-- V52, `INC dp` (R205). -/
theorem test_V52_incDp :
    runs [0xE6#8, 0x10#8] (put 0x000010 [0xFF#8] start) (fun t => (t.pc, t.p.z, byte 0x000010 t, t.cyc)) =
      some (0x1002#16, true, 0x00#8, 5#64) := by
  decide

/-- V53, `INC A` (R205). -/
theorem test_V53_incA :
    runs [0x1A#8] { start with a := 0x7FFF#16, p := native false true } (fun t => ([t.a, t.pc], t.p.n, t.cyc)) =
      some ([0x8000#16, 0x1001#16], true, 2#64) := by
  decide

/-- V54, `DEC A` (R206). -/
theorem test_V54_decA :
    runs [0x3A#8] { start with p := native false true } (fun t => ([t.a, t.pc], t.p.n, t.cyc)) =
      some ([0xFFFF#16, 0x1001#16], true, 2#64) := by
  decide

/-- V55, `DEC dp` (R206). -/
theorem test_V55_decDp :
    runs [0xC6#8, 0x10#8]
      (put 0x000011 [0x00#8, 0x01#8] { start with dp := 0x0001#16, p := native false true })
      (fun t => (t.pc, [0x000011, 0x000012].map (byte · t), t.cyc)) =
      some (0x1002#16, [0xFF#8, 0x00#8], 7#64) := by
  decide

/-- V56, `INX` (R207). -/
theorem test_V56_inx :
    runs [0xE8#8] { start with x := 0x00FF#16 } (fun t => ([t.x, t.pc], t.p.z, t.cyc)) =
      some ([0x0000#16, 0x1001#16], true, 2#64) := by
  decide

/-- V57, `INY` (R208). -/
theorem test_V57_iny :
    runs [0xC8#8] { start with y := 0xFFFF#16, p := native true false } (fun t => ([t.y, t.pc], t.p.z, t.cyc)) =
      some ([0x0000#16, 0x1001#16], true, 2#64) := by
  decide

/-- V58, `DEX` (R209). -/
theorem test_V58_dex :
    runs [0xCA#8] start (fun t => ([t.x, t.pc], t.p.n, t.cyc)) =
      some ([0x00FF#16, 0x1001#16], true, 2#64) := by
  decide

/-- V59, `DEY` (R210). -/
theorem test_V59_dey :
    runs [0x88#8] { start with y := 0x8000#16, p := native true false } (fun t => ([t.y, t.pc], t.cyc)) =
      some ([0x7FFF#16, 0x1001#16], 2#64) := by
  decide

/-- V60, `TSB dp` (R211). -/
theorem test_V60_tsbDp :
    runs [0x04#8, 0x20#8]
      (put 0x000020 [0xF0#8] { start with a := 0x000F#16 })
      (fun t => (t.pc, t.p.z, byte 0x000020 t, t.cyc)) =
      some (0x1002#16, true, 0xFF#8, 5#64) := by
  decide

/-- V61, `TRB dp` (R212). -/
theorem test_V61_trbDp :
    runs [0x14#8, 0x20#8]
      (put 0x000020 [0xFF#8] { start with a := 0x000F#16 })
      (fun t => (t.pc, byte 0x000020 t, t.cyc)) =
      some (0x1002#16, 0xF0#8, 5#64) := by
  decide

/-- V62, `ASL A` (R230). -/
theorem test_V62_aslA :
    runs [0x0A#8] { start with a := 0x0081#16 } (fun t => ([t.a, t.pc], t.p.c, t.cyc)) =
      some ([0x0002#16, 0x1001#16], true, 2#64) := by
  decide

/-- V63, `ASL abs` (R230). -/
theorem test_V63_aslAbs :
    runs [0x0E#8, 0x00#8, 0x30#8]
      (put 0x003000 [0x00#8, 0x80#8] { start with p := native false true })
      (fun t => (t.pc, [t.p.z, t.p.c], [0x003000, 0x003001].map (byte · t), t.cyc)) =
      some (0x1003#16, [true, true], [0x00#8, 0x00#8], 7#64) := by
  decide

/-- V64, `LSR A` (R231). -/
theorem test_V64_lsrA :
    runs [0x4A#8]
      { start with a := 0x0001#16, p := native false true }
      (fun t => ([t.a, t.pc], [t.p.z, t.p.c], t.cyc)) =
      some ([0x0000#16, 0x1001#16], [true, true], 2#64) := by
  decide

/-- V65, `LSR A` (R231). -/
theorem test_V65_lsrA :
    runs [0x4A#8] { start with a := 0x1280#16 } (fun t => ([t.a, t.pc], t.cyc)) =
      some ([0x1240#16, 0x1001#16], 2#64) := by
  decide

/-- V66, `ROL A` (R232). -/
theorem test_V66_rolA :
    runs [0x2A#8] { start with a := 0x0080#16, p := { Flags.reset with c := true } } (fun t => ([t.a, t.pc], t.cyc)) =
      some ([0x0001#16, 0x1001#16], 2#64) := by
  decide

/-- V67, `ROR dp` (R233). -/
theorem test_V67_rorDp :
    runs [0x66#8, 0x10#8]
      (put 0x000010 [0x01#8, 0x00#8] { start with p := native false true })
      (fun t => (t.pc, [t.p.z, t.p.c], [0x000010, 0x000011].map (byte · t), t.cyc)) =
      some (0x1002#16, [true, true], [0x00#8, 0x00#8], 6#64) := by
  decide

/-- V68, `ROR A` (R233). -/
theorem test_V68_rorA :
    runs [0x6A#8]
      { start with p := { native false true with c := true } }
      (fun t => ([t.a, t.pc], [t.p.n, t.p.c], t.cyc)) =
      some ([0x8000#16, 0x1001#16], [true, false], 2#64) := by
  decide

/-- V69, `BCC rel8` (R241, R240). -/
theorem test_V69_bcc :
    runs [0x90#8, 0xFE#8] start (fun t => (t.cyc)) =
      some (3#64) := by
  decide

/-- V70, `BCS rel8` (R242). -/
theorem test_V70_bcs :
    runs [0xB0#8, 0x10#8] start (fun t => (t.pc, t.cyc)) =
      some (0x1002#16, 2#64) := by
  decide

/-- V71, `BEQ rel8` (R243). -/
theorem test_V71_beq :
    runs [0xF0#8, 0x10#8] { start with p := { Flags.reset with z := true } } (fun t => (t.pc, t.cyc)) =
      some (0x1012#16, 3#64) := by
  decide

/-- V72, `BNE rel8` (R244). -/
theorem test_V72_bne :
    runs [0xD0#8, 0x80#8] start (fun t => (t.pc, t.cyc)) =
      some (0x0F82#16, 4#64) := by
  decide

/-- V73, `BMI rel8` (R245, R473). -/
theorem test_V73_bmi :
    runs [0x30#8, 0x20#8]
      { start with pc := 0x10F0#16, p := { Flags.reset with n := true } }
      (fun t => (t.pc, t.cyc)) =
      some (0x1112#16, 4#64) := by
  decide

/-- V74, `BMI rel8` (R245, R473). -/
theorem test_V74_bmi :
    runs [0x30#8, 0x20#8]
      { start with pc := 0x10F0#16, p := { native true true with n := true } }
      (fun t => (t.pc, t.cyc)) =
      some (0x1112#16, 3#64) := by
  decide

/-- V75, `BPL rel8` (R246, R240). -/
theorem test_V75_bpl :
    runs [0x10#8, 0x20#8] { start with pc := 0xFFF0#16 } (fun t => (t.pc, t.cyc)) =
      some (0x0012#16, 4#64) := by
  decide

/-- V76, `BVC rel8` (R247). -/
theorem test_V76_bvc :
    runs [0x50#8, 0x10#8] { start with p := { Flags.reset with v := true } } (fun t => (t.pc, t.cyc)) =
      some (0x1002#16, 2#64) := by
  decide

/-- V77, `BVS rel8` (R248). -/
theorem test_V77_bvs :
    runs [0x70#8, 0x02#8] { start with p := { Flags.reset with v := true } } (fun t => (t.pc, t.cyc)) =
      some (0x1004#16, 3#64) := by
  decide

/-- V78, `BRA rel8` (R249). -/
theorem test_V78_bra :
    runs [0x80#8, 0x00#8] start (fun t => (t.pc, t.cyc)) =
      some (0x1002#16, 3#64) := by
  decide

/-- V79, `BRL rel16` (R250). -/
theorem test_V79_brl :
    runs [0x82#8, 0xFD#8, 0xFF#8] start (fun t => (t.cyc)) =
      some (4#64) := by
  decide

/-- V80, `BRL rel16` (R250). -/
theorem test_V80_brl :
    runs [0x82#8, 0x00#8, 0x20#8] { start with pbr := 0x03#8, pc := 0xF000#16 } (fun t => (t.pc, t.cyc)) =
      some (0x1003#16, 4#64) := by
  decide

/-- V81, `JMP abs` (R251, C11). -/
theorem test_V81_jmpAbs :
    runs [0x4C#8, 0x00#8, 0x80#8] { start with dbr := 0x7E#8, pbr := 0x02#8 } (fun t => (t.pc, t.cyc)) =
      some (0x8000#16, 3#64) := by
  decide

/-- V82, `JMP (abs)` (R252). -/
theorem test_V82_jmpAbsInd :
    runs [0x6C#8, 0x00#8, 0x03#8] (put 0x000300 [0x34#8, 0x12#8] start) (fun t => (t.pc, t.cyc)) =
      some (0x1234#16, 5#64) := by
  decide

/-- V83, `JMP (abs)` (R252, R84). -/
theorem test_V83_jmpAbsInd :
    runs [0x6C#8, 0xFF#8, 0xFF#8] (put 0x000000 [0x80#8] (put 0x00FFFF [0x00#8] start)) (fun t => (t.pc, t.cyc)) =
      some (0x8000#16, 5#64) := by
  decide

/-- V84, `JMP (abs,X)` (R253). -/
theorem test_V84_jmpAbsXInd :
    runs [0x7C#8, 0x00#8, 0x20#8]
      (put 0x002002 [0x00#8, 0x90#8] { start with x := 0x0002#16 })
      (fun t => (t.pc, t.cyc)) =
      some (0x9000#16, 6#64) := by
  decide

/-- V85, `JML long` (R254). -/
theorem test_V85_jmlAbsL :
    runs [0x5C#8, 0x56#8, 0x34#8, 0x12#8] start (fun t => (t.pc, t.pbr, t.cyc)) =
      some (0x3456#16, 0x12#8, 4#64) := by
  decide

/-- V86, `JML [abs]` (R255). -/
theorem test_V86_jmlAbsIndL :
    runs [0xDC#8, 0x00#8, 0x04#8] (put 0x000400 [0x00#8, 0x80#8, 0x05#8] start) (fun t => (t.pc, t.pbr, t.cyc)) =
      some (0x8000#16, 0x05#8, 6#64) := by
  decide

/-- V87, `JSR abs` (R256). -/
theorem test_V87_jsrAbs :
    runs [0x20#8, 0x00#8, 0x20#8] start (fun t => ([t.sp, t.pc], [0x0001FF, 0x0001FE].map (byte · t), t.cyc)) =
      some ([0x01FD#16, 0x2000#16], [0x10#8, 0x02#8], 6#64) := by
  decide

/-- V88, `JSR (abs,X)` (R257). -/
theorem test_V88_jsrAbsXInd :
    runs [0xFC#8, 0x00#8, 0x30#8]
      (put 0x003004 [0x00#8, 0x40#8] { start with x := 0x0004#16 })
      (fun t => ([t.sp, t.pc], [0x0001FF, 0x0001FE].map (byte · t), t.cyc)) =
      some ([0x01FD#16, 0x4000#16], [0x10#8, 0x02#8], 8#64) := by
  decide

/-- V89, `JSL long` (R258). -/
theorem test_V89_jslAbsL :
    runs [0x22#8, 0x00#8, 0x00#8, 0x03#8]
      { start with sp := 0x1FFF#16, pbr := 0x01#8, pc := 0x2000#16, p := native true true }
      (fun t => ([t.sp, t.pc], t.pbr, [0x001FFF, 0x001FFE, 0x001FFD].map (byte · t), t.cyc)) =
      some ([0x1FFC#16, 0x0000#16], 0x03#8, [0x01#8, 0x20#8, 0x03#8], 8#64) := by
  decide

/-- V90, `JSL long` (R258, R90). -/
theorem test_V90_jslAbsL :
    runs [0x22#8, 0x00#8, 0x00#8, 0x03#8]
      { start with sp := 0x0100#16, pbr := 0x01#8, pc := 0x2000#16 }
      (fun t => ([t.sp, t.pc], t.pbr, [0x000100, 0x0001FF, 0x0001FE].map (byte · t), t.cyc)) =
      some ([0x01FD#16, 0x0000#16], 0x03#8, [0x01#8, 0x20#8, 0x03#8], 8#64) := by
  decide

/-- V91, `RTS` (R259). -/
theorem test_V91_rts :
    runs [0x60#8] (put 0x0001FE [0x02#8, 0x10#8] { start with sp := 0x01FD#16 }) (fun t => ([t.sp, t.pc], t.cyc)) =
      some ([0x01FF#16, 0x1003#16], 6#64) := by
  decide

/-- V92, `RTS` (R259). -/
theorem test_V92_rts :
    runs [0x60#8]
      (put 0x0001FE [0xFF#8, 0xFF#8] { start with sp := 0x01FD#16, pbr := 0x05#8 })
      (fun t => ([t.sp, t.pc], t.cyc)) =
      some ([0x01FF#16, 0x0000#16], 6#64) := by
  decide

/-- V93, `RTL` (R260). -/
theorem test_V93_rtl :
    runs [0x6B#8]
      (put 0x001FFD [0x03#8, 0x20#8, 0x01#8] { start with sp := 0x1FFC#16, pc := 0x0000#16, p := native true true })
      (fun t => ([t.sp, t.pc], t.pbr, t.cyc)) =
      some ([0x1FFF#16, 0x2004#16], 0x01#8, 6#64) := by
  decide

/-- V94, `PHA` (R270). -/
theorem test_V94_pha :
    runs [0x48#8]
      { start with a := 0x1234#16, sp := 0x1FFF#16, p := native false true }
      (fun t => ([t.sp, t.pc], [0x001FFF, 0x001FFE].map (byte · t), t.cyc)) =
      some ([0x1FFD#16, 0x1001#16], [0x12#8, 0x34#8], 4#64) := by
  decide

/-- V95, `PHX` (R271). -/
theorem test_V95_phx :
    runs [0xDA#8] { start with x := 0x0056#16, sp := 0x0100#16 } (fun t => ([t.sp, t.pc], byte 0x000100 t, t.cyc)) =
      some ([0x01FF#16, 0x1001#16], 0x56#8, 3#64) := by
  decide

/-- V96, `PHY` (R272). -/
theorem test_V96_phy :
    runs [0x5A#8]
      { start with y := 0xABCD#16, sp := 0x1FFF#16, p := native true false }
      (fun t => ([t.sp, t.pc], [0x001FFF, 0x001FFE].map (byte · t), t.cyc)) =
      some ([0x1FFD#16, 0x1001#16], [0xAB#8, 0xCD#8], 4#64) := by
  decide

/-- V97, `PHP` (R273). -/
theorem test_V97_php :
    runs [0x08#8]
      { start with p := { Flags.reset with n := true, c := true } }
      (fun t => ([t.sp, t.pc], t.p.b, byte 0x0001FF t, t.cyc)) =
      some ([0x01FE#16, 0x1001#16], true, 0xB5#8, 3#64) := by
  decide

/-- V98, `PHP` (R273). -/
theorem test_V98_php :
    runs [0x08#8] { start with p := native false true } (fun t => ([t.sp, t.pc], byte 0x0001FF t, t.cyc)) =
      some ([0x01FE#16, 0x1001#16], 0x14#8, 3#64) := by
  decide

/-- V99, `PHB` (R274). -/
theorem test_V99_phb :
    runs [0x8B#8] { start with dbr := 0x7E#8 } (fun t => ([t.sp, t.pc], byte 0x0001FF t, t.cyc)) =
      some ([0x01FE#16, 0x1001#16], 0x7E#8, 3#64) := by
  decide

/-- V100, `PHD` (R275). -/
theorem test_V100_phd :
    runs [0x0B#8]
      { start with dp := 0x1234#16 }
      (fun t => ([t.sp, t.pc], [0x0001FF, 0x0001FE].map (byte · t), t.cyc)) =
      some ([0x01FD#16, 0x1001#16], [0x12#8, 0x34#8], 4#64) := by
  decide

/-- V101, `PHK` (R276). -/
theorem test_V101_phk :
    runs [0x4B#8] { start with pbr := 0x02#8 } (fun t => ([t.sp, t.pc], byte 0x0001FF t, t.cyc)) =
      some ([0x01FE#16, 0x1001#16], 0x02#8, 3#64) := by
  decide

/-- V102, `PLA` (R277). -/
theorem test_V102_pla :
    runs [0x68#8] (put 0x0001FF [0x80#8] { start with sp := 0x01FE#16 }) (fun t => ([t.a, t.sp, t.pc], t.p.n, t.cyc)) =
      some ([0x0080#16, 0x01FF#16, 0x1001#16], true, 4#64) := by
  decide

/-- V103, `PLA` (R277). -/
theorem test_V103_pla :
    runs [0x68#8] (put 0x000100 [0x00#8] start) (fun t => ([t.sp, t.pc], t.p.z, t.cyc)) =
      some ([0x0100#16, 0x1001#16], true, 4#64) := by
  decide

/-- V104, `PLX` (R278). -/
theorem test_V104_plx :
    runs [0xFA#8]
      (put 0x001FFE [0x00#8, 0x00#8] { start with sp := 0x1FFD#16, p := native true false })
      (fun t => ([t.x, t.sp, t.pc], t.p.z, t.cyc)) =
      some ([0x0000#16, 0x1FFF#16, 0x1001#16], true, 5#64) := by
  decide

/-- V105, `PLY` (R279). -/
theorem test_V105_ply :
    runs [0x7A#8] (put 0x0001FF [0x01#8] { start with sp := 0x01FE#16 }) (fun t => ([t.y, t.sp, t.pc], t.cyc)) =
      some ([0x0001#16, 0x01FF#16, 0x1001#16], 4#64) := by
  decide

/-- V106, `PLP` (R280, R44). -/
theorem test_V106_plp :
    runs [0x28#8]
      (put 0x001FFF [0x30#8] { start with x := 0x1234#16, sp := 0x1FFE#16, p := native true false })
      (fun t => ([t.x, t.sp, t.pc], [t.p.x, t.p.i], t.cyc)) =
      some ([0x0034#16, 0x1FFF#16, 0x1001#16], [true, false], 4#64) := by
  decide

/-- V107, `PLP` (R280, R44). -/
theorem test_V107_plp :
    runs [0x28#8]
      (put 0x0001FF [0xFF#8] { start with sp := 0x01FE#16 })
      (fun t => ([t.sp, t.pc], [t.p.n, t.p.v, t.p.d, t.p.z, t.p.c, t.p.b], t.cyc)) =
      some ([0x01FF#16, 0x1001#16], [true, true, true, true, true, true], 4#64) := by
  decide

/-- V108, `PLB` (R281). -/
theorem test_V108_plb :
    runs [0xAB#8]
      (put 0x0001FF [0x00#8] { start with sp := 0x01FE#16 })
      (fun t => ([t.sp, t.pc], t.dbr, t.p.z, t.cyc)) =
      some ([0x01FF#16, 0x1001#16], 0x00#8, true, 4#64) := by
  decide

/-- V109, `PLD` (R282). -/
theorem test_V109_pld :
    runs [0x2B#8]
      (put 0x001FFE [0x00#8, 0x80#8] { start with sp := 0x1FFD#16, p := native true true })
      (fun t => ([t.sp, t.dp, t.pc], t.p.n, t.cyc)) =
      some ([0x1FFF#16, 0x8000#16, 0x1001#16], true, 5#64) := by
  decide

/-- V110, `PEA #imm16` (R283). -/
theorem test_V110_pea :
    runs [0xF4#8, 0x34#8, 0x12#8] start (fun t => ([t.sp, t.pc], [0x0001FF, 0x0001FE].map (byte · t), t.cyc)) =
      some ([0x01FD#16, 0x1003#16], [0x12#8, 0x34#8], 5#64) := by
  decide

/-- V111, `PEI (dp)` (R284). -/
theorem test_V111_pei :
    runs [0xD4#8, 0x10#8]
      (put 0x000110 [0xCD#8, 0xAB#8] { start with sp := 0x1FFF#16, dp := 0x0100#16, p := native true true })
      (fun t => ([t.sp, t.pc], [0x001FFF, 0x001FFE].map (byte · t), t.cyc)) =
      some ([0x1FFD#16, 0x1002#16], [0xAB#8, 0xCD#8], 6#64) := by
  decide

/-- V112, `PER rel16` (R285). -/
theorem test_V112_per :
    runs [0x62#8, 0x10#8, 0x00#8] start (fun t => ([t.sp, t.pc], [0x0001FF, 0x0001FE].map (byte · t), t.cyc)) =
      some ([0x01FD#16, 0x1003#16], [0x10#8, 0x13#8], 6#64) := by
  decide

/-- V113, `TAX` (R300). -/
theorem test_V113_tax :
    runs [0xAA#8] { start with a := 0x8001#16, p := native true false } (fun t => ([t.x, t.pc], t.p.n, t.cyc)) =
      some ([0x8001#16, 0x1001#16], true, 2#64) := by
  decide

/-- V114, `TAX` (R300). -/
theorem test_V114_tax :
    runs [0xAA#8] { start with a := 0x1280#16 } (fun t => ([t.x, t.pc], t.p.n, t.cyc)) =
      some ([0x0080#16, 0x1001#16], true, 2#64) := by
  decide

/-- V115, `TAY` (R301). -/
theorem test_V115_tay :
    runs [0xA8#8] { start with p := native true false } (fun t => ([t.y, t.pc], t.p.z, t.cyc)) =
      some ([0x0000#16, 0x1001#16], true, 2#64) := by
  decide

/-- V116, `TXA` (R302). -/
theorem test_V116_txa :
    runs [0x8A#8] { start with x := 0x00FF#16, p := native false true } (fun t => ([t.a, t.pc], t.cyc)) =
      some ([0x00FF#16, 0x1001#16], 2#64) := by
  decide

/-- V117, `TXA` (R302). -/
theorem test_V117_txa :
    runs [0x8A#8] { start with a := 0x1200#16, x := 0x0034#16 } (fun t => ([t.a, t.pc], t.cyc)) =
      some ([0x1234#16, 0x1001#16], 2#64) := by
  decide

/-- V118, `TYA` (R303). -/
theorem test_V118_tya :
    runs [0x98#8] start (fun t => ([t.a, t.pc], t.p.z, t.cyc)) =
      some ([0x0000#16, 0x1001#16], true, 2#64) := by
  decide

/-- V119, `TSX` (R304). -/
theorem test_V119_tsx :
    runs [0xBA#8] { start with sp := 0x01F0#16 } (fun t => ([t.x, t.pc], t.p.n, t.cyc)) =
      some ([0x00F0#16, 0x1001#16], true, 2#64) := by
  decide

/-- V120, `TXS` (R305). -/
theorem test_V120_txs :
    runs [0x9A#8] { start with x := 0x0080#16 } (fun t => ([t.sp, t.pc], t.cyc)) =
      some ([0x0180#16, 0x1001#16], 2#64) := by
  decide

/-- V121, `TXS` (R305). -/
theorem test_V121_txs :
    runs [0x9A#8] { start with x := 0x2FFF#16, p := native true false } (fun t => ([t.sp, t.pc], t.cyc)) =
      some ([0x2FFF#16, 0x1001#16], 2#64) := by
  decide

/-- V122, `TXY` (R306). -/
theorem test_V122_txy :
    runs [0x9B#8] { start with x := 0x8000#16, p := native true false } (fun t => ([t.y, t.pc], t.p.n, t.cyc)) =
      some ([0x8000#16, 0x1001#16], true, 2#64) := by
  decide

/-- V123, `TYX` (R307). -/
theorem test_V123_tyx :
    runs [0xBB#8] { start with x := 0x0005#16 } (fun t => ([t.x, t.pc], t.p.z, t.cyc)) =
      some ([0x0000#16, 0x1001#16], true, 2#64) := by
  decide

/-- V124, `TCD` (R308). -/
theorem test_V124_tcd :
    runs [0x5B#8] { start with a := 0x8000#16 } (fun t => ([t.dp, t.pc], t.p.n, t.cyc)) =
      some ([0x8000#16, 0x1001#16], true, 2#64) := by
  decide

/-- V125, `TDC` (R309). -/
theorem test_V125_tdc :
    runs [0x7B#8] { start with a := 0xFFFF#16 } (fun t => ([t.a, t.pc], t.p.z, t.cyc)) =
      some ([0x0000#16, 0x1001#16], true, 2#64) := by
  decide

/-- V126, `TCS` (R310). -/
theorem test_V126_tcs :
    runs [0x1B#8] { start with a := 0x12F0#16 } (fun t => ([t.sp, t.pc], t.cyc)) =
      some ([0x01F0#16, 0x1001#16], 2#64) := by
  decide

/-- V127, `TCS` (R310). -/
theorem test_V127_tcs :
    runs [0x1B#8] { start with a := 0x3FFF#16, p := native true true } (fun t => ([t.sp, t.pc], t.cyc)) =
      some ([0x3FFF#16, 0x1001#16], 2#64) := by
  decide

/-- V128, `TSC` (R311). -/
theorem test_V128_tsc :
    runs [0x3B#8] start (fun t => ([t.a, t.pc], t.cyc)) =
      some ([0x01FF#16, 0x1001#16], 2#64) := by
  decide

/-- V129, `XBA` (R312). -/
theorem test_V129_xba :
    runs [0xEB#8] { start with a := 0x1280#16 } (fun t => ([t.a, t.pc], t.cyc)) =
      some ([0x8012#16, 0x1001#16], 3#64) := by
  decide

/-- V130, `XBA` (R312). -/
theorem test_V130_xba :
    runs [0xEB#8] { start with a := 0x00FF#16, p := native false true } (fun t => ([t.a, t.pc], t.p.z, t.cyc)) =
      some ([0xFF00#16, 0x1001#16], true, 3#64) := by
  decide

/-- V131, `CLC` (R320). -/
theorem test_V131_clc :
    runs [0x18#8] { start with p := { Flags.reset with c := true } } (fun t => (t.pc, t.p.c, t.cyc)) =
      some (0x1001#16, false, 2#64) := by
  decide

/-- V132, `SEC` (R321). -/
theorem test_V132_sec :
    runs [0x38#8] start (fun t => (t.pc, t.p.c, t.cyc)) =
      some (0x1001#16, true, 2#64) := by
  decide

/-- V133, `CLI` (R322). -/
theorem test_V133_cli :
    runs [0x58#8] start (fun t => (t.pc, t.p.i, t.cyc)) =
      some (0x1001#16, false, 2#64) := by
  decide

/-- V134, `SEI` (R323). -/
theorem test_V134_sei :
    runs [0x78#8] { start with p := { Flags.reset with i := false } } (fun t => (t.pc, t.p.i, t.cyc)) =
      some (0x1001#16, true, 2#64) := by
  decide

/-- V135, `CLD` (R324). -/
theorem test_V135_cld :
    runs [0xD8#8] { start with p := { Flags.reset with d := true } } (fun t => (t.pc, t.p.d, t.cyc)) =
      some (0x1001#16, false, 2#64) := by
  decide

/-- V136, `SED` (R325). -/
theorem test_V136_sed :
    runs [0xF8#8] start (fun t => (t.pc, t.p.d, t.cyc)) =
      some (0x1001#16, true, 2#64) := by
  decide

/-- V137, `CLV` (R326). -/
theorem test_V137_clv :
    runs [0xB8#8] { start with p := { Flags.reset with v := true } } (fun t => (t.pc, t.p.v, t.cyc)) =
      some (0x1001#16, false, 2#64) := by
  decide

/-- V138, `REP #imm8` (R327). -/
theorem test_V138_rep :
    runs [0xC2#8, 0x30#8] { start with p := native true true } (fun t => (t.pc, [t.p.m, t.p.x], t.cyc)) =
      some (0x1002#16, [false, false], 3#64) := by
  decide

/-- V139, `REP #imm8` (R327, R45). -/
theorem test_V139_rep :
    runs [0xC2#8, 0xFF#8] start (fun t => (t.pc, [t.p.i, t.p.z, t.p.c], t.cyc)) =
      some (0x1002#16, [false, false, false], 3#64) := by
  decide

/-- V140, `SEP #imm8` (R328). -/
theorem test_V140_sep :
    runs [0xE2#8, 0x10#8]
      { start with x := 0x1234#16, y := 0xABCD#16, p := native true false }
      (fun t => ([t.x, t.y, t.pc], t.p.x, t.cyc)) =
      some ([0x0034#16, 0x00CD#16, 0x1002#16], true, 3#64) := by
  decide

/-- V141, `SEP #imm8` (R328, R46). -/
theorem test_V141_sep :
    runs [0xE2#8, 0xFF#8] start (fun t => (t.pc, [t.p.n, t.p.v, t.p.d, t.p.z, t.p.c], t.cyc)) =
      some (0x1002#16, [true, true, true, true, true], 3#64) := by
  decide

/-- V142, `XCE` (R329). -/
theorem test_V142_xce :
    runs [0xFB#8] start (fun t => (t.pc, [t.p.c, t.p.e], t.cyc)) =
      some (0x1001#16, [true, false], 2#64) := by
  decide

/-- V143, `XCE` (R329, C12). -/
theorem test_V143_xce :
    runs [0xFB#8]
      { start with x := 0x1234#16, y := 0x5678#16, sp := 0x1FF0#16, p := { native false false with c := true } }
      (fun t => ([t.x, t.y, t.sp, t.pc], [t.p.m, t.p.x, t.p.c, t.p.e], t.cyc)) =
      some ([0x0034#16, 0x0078#16, 0x01F0#16, 0x1001#16], [true, true, false, true], 2#64) := by
  decide

/-- V145, `BRK #sig` (R340, R411). -/
theorem test_V145_brk :
    runs [0x00#8, 0xEA#8]
      (put 0x00FFE6 [0x00#8, 0x90#8]
        { start with sp := 0x1FFF#16, pbr := 0x01#8, pc := 0x2000#16, p := { native false false with i := false } })
      (fun t => ([t.sp, t.pc], t.pbr, t.p.i, [0x001FFF, 0x001FFE, 0x001FFD, 0x001FFC].map (byte · t), t.cyc)) =
      some ([0x1FFB#16, 0x9000#16], 0x00#8, true, [0x01#8, 0x20#8, 0x02#8, 0x00#8], 8#64) := by
  decide

/-- V146, `BRK #sig` (R340, R413). -/
theorem test_V146_brk :
    runs [0x00#8, 0x00#8]
      (put 0x00FFFE [0x00#8, 0xC0#8] { start with pc := 0x3000#16, p := { Flags.reset with i := false } })
      (fun t => ([t.sp, t.pc], [t.p.i, t.p.b], [0x0001FF, 0x0001FE, 0x0001FD].map (byte · t), t.cyc)) =
      some ([0x01FC#16, 0xC000#16], [true, true], [0x30#8, 0x02#8, 0x30#8], 7#64) := by
  decide

/-- V147, `COP #sig` (R341). -/
theorem test_V147_cop :
    runs [0x02#8, 0x00#8]
      (put 0x00FFF4 [0x00#8, 0xE0#8] { start with pc := 0x3000#16 })
      (fun t => ([t.sp, t.pc], t.p.b, [0x0001FF, 0x0001FE, 0x0001FD].map (byte · t), t.cyc)) =
      some ([0x01FC#16, 0xE000#16], true, [0x30#8, 0x02#8, 0x34#8], 7#64) := by
  decide

/-- V148, `COP #sig` (R341). -/
theorem test_V148_cop :
    runs [0x02#8, 0x55#8]
      (put 0x00FFE4 [0x00#8, 0xE1#8] { start with sp := 0x1FFF#16, p := { native true true with d := true } })
      (fun t => ([t.sp, t.pc], t.p.d, [0x001FFF, 0x001FFE, 0x001FFD, 0x001FFC].map (byte · t), t.cyc)) =
      some ([0x1FFB#16, 0xE100#16], false, [0x00#8, 0x10#8, 0x02#8, 0x3C#8], 8#64) := by
  decide

/-- V150, `RTI` (R342). -/
theorem test_V150_rti :
    runs [0x40#8]
      (put 0x0001FD [0x30#8, 0x02#8, 0x30#8] { start with sp := 0x01FC#16, pc := 0xC000#16 })
      (fun t => ([t.sp, t.pc], [t.p.i, t.p.b], t.cyc)) =
      some ([0x01FF#16, 0x3002#16], [false, true], 6#64) := by
  decide

/-- V151, `RTI` (R342, R44). -/
theorem test_V151_rti :
    runs [0x40#8]
      (put 0x001FFC [0x10#8, 0x00#8, 0x20#8, 0x00#8]
        { start with x := 0x1234#16, sp := 0x1FFB#16, pc := 0x9000#16, p := native true false })
      (fun t => ([t.x, t.sp, t.pc], [t.p.m, t.p.x, t.p.i], t.cyc)) =
      some ([0x0034#16, 0x1FFF#16, 0x2000#16], [false, true, false], 7#64) := by
  decide

/-- V152, `WAI` (R343). -/
theorem test_V152_wai :
    runs [0xCB#8] start (fun t => (t.pc, t.run, t.cyc)) =
      some (0x1001#16, .waiting, 3#64) := by
  decide

/-- V153, `STP` (R344). -/
theorem test_V153_stp :
    runs [0xDB#8] start (fun t => (t.pc, t.run, t.cyc)) =
      some (0x1001#16, .stopped, 3#64) := by
  decide

/-- V154, `WDM #imm8` (R345). -/
theorem test_V154_wdm :
    runs [0x42#8, 0xFF#8] start (fun t => (t.pc, t.cyc)) =
      some (0x1002#16, 2#64) := by
  decide

/-- V155, `NOP` (R346). -/
theorem test_V155_nop :
    runs [0xEA#8] start (fun t => (t.pc, t.cyc)) =
      some (0x1001#16, 2#64) := by
  decide

/-- V156, `NOP` (R346, R29). -/
theorem test_V156_nop :
    runs [0xEA#8] { start with pc := 0xFFFF#16 } (fun t => (t.pc, t.cyc)) =
      some (0x0000#16, 2#64) := by
  decide

/-- V157, `MVN srcbk,dstbk` (R360). -/
theorem test_V157_mvn :
    runs [0x54#8, 0x7E#8, 0x01#8]
      (put 0x011000 [0x01#8, 0x02#8, 0x03#8]
        { start with a := 0x0002#16, x := 0x1000#16, y := 0x2000#16, pc := 0x8000#16, p := native true false })
      (fun t => ([t.a, t.x, t.y, t.pc], t.dbr, [0x7E2000, 0x7E2001, 0x7E2002].map (byte · t), t.cyc)) =
      some ([0xFFFF#16, 0x1003#16, 0x2003#16, 0x8003#16], 0x7E#8, [0x01#8, 0x02#8, 0x03#8], 21#64) := by
  decide

/-- V158, `MVP srcbk,dstbk` (R361). -/
theorem test_V158_mvp :
    runs [0x44#8, 0x00#8, 0x00#8]
      (put 0x001000 [0xAA#8, 0xBB#8]
        { start with a := 0x0001#16, x := 0x1001#16, y := 0x1002#16, pc := 0x8000#16, p := native true false })
      (fun t => ([t.a, t.x, t.y, t.pc], [0x001000, 0x001001, 0x001002].map (byte · t), t.cyc)) =
      some ([0xFFFF#16, 0x0FFF#16, 0x1000#16, 0x8003#16], [0xAA#8, 0xAA#8, 0xBB#8], 14#64) := by
  decide

/-- V159, `MVN srcbk,dstbk` (R362). -/
theorem test_V159_mvn :
    runs [0x54#8, 0x02#8, 0x01#8]
      (put 0x0100FF [0x5A#8] { start with x := 0x00FF#16, y := 0x00FF#16, pc := 0x8000#16 })
      (fun t => ([t.a, t.x, t.y, t.pc], t.dbr, byte 0x0200FF t, t.cyc)) =
      some ([0xFFFF#16, 0x0000#16, 0x0000#16, 0x8003#16], 0x02#8, 0x5A#8, 7#64) := by
  decide
/-! ## Interrupts, run states and reset (95_test_vectors section 3) -/

/-- I1: IRQ in native mode pushes four bytes. -/
theorem test_I1_irq_native :
    after (setPin .irq true (put 0x00FFEE [0x00#8, 0x80#8]
        { start with pbr := 0x01#8, pc := 0x2000#16, sp := 0x1FFF#16, p := { native true true with i := false } }))
      (fun t => (t.programAddress, t.sp, t.p.i, [0x1FFF, 0x1FFE, 0x1FFD, 0x1FFC].map (byte · t), t.cyc)) =
      some (⟨0x00#8, 0x8000#16⟩, 0x1FFB#16, true, [0x01#8, 0x20#8, 0x00#8, 0x30#8], 8#64) := by
  decide

/-- I2: IRQ in emulation mode pushes three bytes, B = 0 in the stacked flags. -/
theorem test_I2_irq_emulation :
    after (setPin .irq true (put 0x00FFFE [0x00#8, 0x90#8]
        { start with pc := 0x1234#16, p := { Flags.reset with i := false, c := true } }))
      (fun t => (t.pc, t.sp, t.p.i, [0x01FF, 0x01FE, 0x01FD].map (byte · t), t.cyc)) =
      some (0x9000#16, 0x01FC#16, true, [0x12#8, 0x34#8, 0x21#8], 7#64) := by
  decide

/-- I3: IRQ is masked by I. -/
theorem test_I3_irq_masked :
    runs [0xEA#8] (setPin .irq true start) (fun t => (t.pc, t.sp, t.cyc)) = some (0x1001#16, 0x01FF#16, 2#64) := by
  decide

/-- I4: NMI is not masked by I. -/
theorem test_I4_nmi :
    after (setPin .nmi true (put 0x00FFFA [0x00#8, 0xA0#8] start))
      (fun t => (t.pc, t.sp, t.nmiPending, [0x01FF, 0x01FE, 0x01FD].map (byte · t), t.cyc)) =
      some (0xA000#16, 0x01FC#16, false, [0x10#8, 0x00#8, 0x24#8], 7#64) := by
  decide

/-- I5: ABORT, NMI and IRQ at once: ABORT first, then NMI. -/
theorem test_I5_priority :
    after2 (setPin .irq true (setPin .nmi true (setPin .abort true
        (put 0x00FFE8 [0x00#8, 0xB0#8, 0x00#8, 0xC0#8]
          { start with sp := 0x1FFF#16, p := { native true true with i := false } }))))
      (fun t => (t.pc, t.sp, [0x1FFF, 0x1FFE, 0x1FFD, 0x1FFC].map (byte · t),
        [0x1FFB, 0x1FFA, 0x1FF9, 0x1FF8].map (byte · t), t.cyc)) =
      some (0xC000#16, 0x1FF7#16, [0x00#8, 0x10#8, 0x00#8, 0x30#8], [0x00#8, 0xB0#8, 0x00#8, 0x34#8], 16#64) := by
  decide

/-- I6, its steps 2 and 3: a waiting core does nothing until IRQ wakes it; with I set the next instruction runs. -/
theorem test_I6_wait_and_wake :
    after { start with run := .waiting } (fun t => (t.run, t.pc, t.cyc)) = some (.waiting, 0x1000#16, 0#64) ∧
      runs [0xE8#8] (setPin .irq true { start with run := .waiting }) (fun t => (t.run, t.x, t.pc)) =
        some (.running, 0x0001#16, 0x1001#16) := by
  decide

/-- I7: a wake with I clear enters in the same step; the return address is the instruction after WAI. -/
theorem test_I7_wake_and_enter :
    after (setPin .irq true (put 0x00FFFE [0x00#8, 0x90#8]
        { start with pc := 0x1001#16, run := .waiting, p := { Flags.reset with i := false } }))
      (fun t => (t.pc, t.run, [0x01FF, 0x01FE, 0x01FD].map (byte · t), t.cyc)) =
      some (0x9000#16, .running, [0x10#8, 0x01#8, 0x20#8], 7#64) := by
  decide

/-- I8: a stopped core does nothing; the latch stays. -/
theorem test_I8_stopped :
    after (setPin .nmi true (setPin .irq true { start with run := .stopped }))
      (fun t => (t.run, t.nmiPending, t.pc, t.sp)) = some (.stopped, true, 0x1000#16, 0x01FF#16) := by
  decide

/-- I10: RDY deasserted: nothing happens, not even an entry. -/
theorem test_I10_rdy :
    after (setPin .irq true (setPin .rdy false { start with p := { Flags.reset with i := false } }))
      (fun t => (t.programAddress, t.sp, t.bus, t.cyc)) =
      some (⟨0x00#8, 0x1000#16⟩, 0x01FF#16, Bus.empty, 0#64) := by
  decide

/-- The defect that a step ends in. -/
def stopsAt (s : State) : Option Fault :=
  match step s with
  | .next _ => none
  | .fault f => some f
  | .refused _ => none

/-- I12: an opcode with no handler is a defect. -/
theorem test_I12_defect :
    stopsAt (put 0x1000 [0x42#8] { start with plat := { Platform.standard with unimplemented := [0x42#8] } }) =
      some (.defect 0x42#8) := by
  decide

/-- The start of RS1, after RES was asserted, stepped and deasserted. -/
def beforeReset : State :=
  setPin .res false (setPin .res true (put 0x00FFFC [0x00#8, 0xE0#8]
    { start with
      a := 0xBEEF#16, x := 0x1234#16, y := 0x5678#16, sp := 0x1FF0#16, dp := 0x2000#16, dbr := 0x7E#8, pbr := 0x05#8
      pc := 0x4321#16, run := .stopped, nmiPending := true, cyc := 100#64
      p := { native false false with n := true, v := true, z := true, c := true, d := true, i := false } }))

/-- RS1 and I11: the registers after reset. -/
theorem test_RS1_registers :
    after beforeReset (fun t => ([t.a, t.x, t.y, t.sp, t.dp], t.dbr, t.programAddress)) =
      some ([0xBEEF#16, 0x0034#16, 0x0078#16, 0x01F0#16, 0x0000#16], 0x00#8, ⟨0x00#8, 0xE000#16⟩) := by
  decide

/-- RS1: the flags, the run state, the latches and the counter after reset. -/
theorem test_RS1_flags :
    after beforeReset (fun t => (t.p.encode, t.p.e, t.run, t.nmiPending, t.resetPending, t.cyc)) =
      some (0xE7#8, true, .running, false, false, 100#64) := by
  decide

/-- I11: RES asserted holds the core, and sets the latch. -/
theorem test_I11_reset_held :
    after (setPin .res true start) (fun t => (t.run, t.resetPending, t.pc)) =
      some (.resetHeld, true, 0x1000#16) := by
  decide

/-- RS2: an unpopulated reset vector reads 0x0000. -/
theorem test_RS2_no_vector : after State.powerOn (fun t => t.programAddress) = some ⟨0x00#8, 0x0000#16⟩ := by
  decide

/-! ## Launches (R462) -/

/-- A run ends as Final when a step stops the core, and no step is taken after it. -/
theorem test_launch_stopped :
    (match Launch.after { start := put 0x1000 [0xDB#8] start, halt := none } 5 with
      | .ended (.final t) => some (t.run, t.pc, t.cyc)
      | _ => none) = some (.stopped, 0x1001#16, 3#64) := by
  decide

/-- A run ends as Final at the stop address, before the fetch there. -/
theorem test_launch_halt :
    (match Launch.after { start := put 0x1000 [0xEA#8, 0xE8#8] start, halt := some ⟨0x00#8, 0x1001#16⟩ } 5 with
      | .ended (.final t) => some (t.run, t.pc, t.x)
      | _ => none) = some (.running, 0x1001#16, 0x0000#16) := by
  decide

/-- A run that waits with no wake source is stuck, and a defect ends a run as a fault. -/
theorem test_launch_stuck_and_fault :
    (match Launch.after { start := put 0x1000 [0xCB#8] start, halt := none } 5 with
      | .ended (.stuck t) => some t.pc
      | _ => none) = some 0x1001#16 ∧
    (match Launch.after { start := { start with plat := { Platform.standard with unimplemented := [0x00#8] } },
                          halt := none } 5 with
      | .ended (.fault f _) => some f
      | _ => none) = some (.defect 0x00#8) := by
  decide

/-- R451, R462: the power-on state and a running state may start a launch. -/
theorem test_launch_legal :
    Launch.legal { start := State.powerOn, halt := none } = true ∧ Launch.legal { start := start, halt := none } = true ∧
      Launch.legal { start := { start with run := .waiting }, halt := none } = false := by
  decide

/-! ## Timing (95_test_vectors section 4), where no vector of section 2 stands for the instruction already -/

/-- T6: a store takes no page penalty. -/
theorem test_T6_staAbsX :
    runs [0x9D#8, 0xFF#8, 0x10#8] { start with x := 0x0001#16 } (fun t => t.cyc) = some 5#64 := by
  decide

/-- T10: INC abs,X in 16 bits. -/
theorem test_T10_incAbsX :
    runs [0xFE#8, 0x00#8, 0x20#8] { start with p := native false true } (fun t => t.cyc) = some 8#64 := by
  decide

/-- T18: PEI with a nonzero low byte of D. -/
theorem test_T18_pei :
    runs [0xD4#8, 0x10#8] { start with dp := 0x0001#16, p := native true true } (fun t => t.cyc) = some 7#64 := by
  decide

/-! ## Worked examples of 95_test_vectors section 1 -/

/-- 1.4: the two additions. -/
theorem test_offset_arithmetic :
    (⟨0x12#8, 0xFFFF#16⟩ : Addr).withOffsetWrap 1 = ⟨0x12#8, 0x0000#16⟩ ∧
      (⟨0x12#8, 0xFFFF#16⟩ : Addr).withOffsetNoWrap 1 = ⟨0x13#8, 0x0000#16⟩ ∧
      (⟨0x12#8, 0x0000#16⟩ : Addr).withOffsetNoWrap (-1) = ⟨0x11#8, 0xFFFF#16⟩ ∧
      (⟨0xFF#8, 0xFFFF#16⟩ : Addr).withOffsetNoWrap 1 = ⟨0x00#8, 0x0000#16⟩ := by
  decide +kernel

/-- 1.5: the page test. -/
theorem test_page :
    differentPages 0x10FF#16 0x1100#16 = true ∧ differentPages 0x1000#16 0x10FF#16 = false ∧
      differentPages 0xFFFF#16 0x0000#16 = true ∧ differentPages 0x0000#16 0x00FF#16 = false := by
  decide

/-- 1.6: the status byte. -/
theorem test_status :
    ({ native true true with n := true, c := true } : Flags).encode = 0xB5#8 ∧
      (native false false).decode 0xB5#8 = { native true true with n := true, c := true } := by
  decide

/-- 1.7, rows OV2, OV7, OV15 and OV24: sums, carries and overflow. -/
theorem test_overflow :
    (addBin .w8 0x00#16 0x7F#16 true, overflow .w8 0x00#16 0x7F#16 true) = ((0x80#16, false), true) ∧
      (addBin .w8 0x80#16 0x80#16 false, overflow .w8 0x80#16 0x80#16 false) = ((0x00#16, true), true) ∧
      (addBin .w8 0x80#16 (complement .w8 0x00#16) false, overflow .w8 0x80#16 (complement .w8 0x00#16) false) =
        ((0x7F#16, true), true) ∧
      (addBin .w16 0x8000#16 0xFFFF#16 true, overflow .w16 0x8000#16 0xFFFF#16 true) = ((0x8000#16, true), false) := by
  decide

/-- R195: a DecSbc16 given by a row. -/
theorem test_decSbc16_table :
    decSub (.table [{ a := 0x1000#16, m := 0x0001#16, c := true, result := 0x0099#16, carry := true }]) .w16 0
        0x1000#16 0x0001#16 true = (0x0099#16, true) ∧
      decSub (.table []) .w16 0 0x1000#16 0x0001#16 true = (0x0999#16, true) := by
  decide

/-- The platform of 1.9: a region over bank 0 and a device that claims bank 1 (and no region there). -/
def openPlatform : Platform :=
  { Platform.standard with
    devices := [{ regions := [{ first := 0x000000, last := 0x00FFFF }], windows := [] },
                { regions := [], windows := [{ first := 0x010000, last := 0x01FFFF, base := 0 }] }] }

/-- 1.9: the flat path, the device path (the write is the device's event), and neither. -/
theorem test_bus_dispatch :
    (busRead8 openPlatform ⟨0x00#8, 0x0002#16⟩ (busWrite8 openPlatform ⟨0x00#8, 0x0002#16⟩ 0x5A#8 Bus.empty)).1 =
        0x5A#8 ∧
      (busWrite8 openPlatform ⟨0x01#8, 0x0005#16⟩ 0xA5#8 Bus.empty).devLog = [.write 1 5 0xA5#8] ∧
      (busRead8 openPlatform ⟨0x01#8, 0x0005#16⟩ Bus.empty).2.draws = 1 ∧
      busWrite8 openPlatform ⟨0x02#8, 0x0000#16⟩ 0x77#8 Bus.empty = Bus.empty ∧
      busRead8 openPlatform ⟨0x02#8, 0x0000#16⟩ Bus.empty = (0x00#8, Bus.empty) := by
  refine ⟨?_, ?_, rfl, ?_, ?_⟩ <;> decide

/-! ## Witnesses: what meets the hypotheses of each obligation -/

/-- EncodeThenDecodeGivesBack: immediates at the edge of each width, and an instruction of four bytes. -/
theorem witness_EncodeThenDecodeGivesBack :
    WellFormed true true (.ldaImm 0x00FF#16) = true ∧ WellFormed false true (.ldaImm 0xFFFF#16) = true ∧
      WellFormed true false (.ldxImm 0xFFFF#16) = true ∧ WellFormed true true (.jslAbsL ⟨0xFF#8, 0xFFFF#16⟩) = true := by
  decide

/-- DecodeThenEncodeGivesBytes: something decodes, with bytes left over and without. -/
theorem witness_DecodeThenEncodeGivesBytes :
    decode true true [0xA9#8, 0xFF#8, 0xFF#8] = .ok (.ldaImm 0x00FF#16, [0xFF#8]) ∧
      decode false true [0xA9#8, 0xFF#8, 0xFF#8] = .ok (.ldaImm 0xFFFF#16, []) := by
  exact ⟨rfl, rfl⟩

/-- The default bus with MULTIBYTE_CROSSES_BANK. -/
def crossing : Platform := { Platform.standard with multibyteCrossesBank := true }

/-- StepRunsTheDecodedInstruction: an instruction that spans the end of the bank with the parameter off. -/
theorem witness_StepRunsTheDecodedInstruction :
    let s := put 0x00FFFE [0xA9#8, 0x42#8] { start with pc := 0xFFFE#16 }
    s.Ready ∧ s.plat.unimplemented.contains s.fetchOpcode.1 = false ∧
      (∀ k, k < 4 → NoDevice s.plat (s.fetchAddr k)) ∧ s.plat.multibyteCrossesBank = false ∧
      s.plat.unimplemented.contains (Instr.opcode (.ldaImm 0x0042#16)) = false ∧
      decoded s.m8 s.x8 (s.codeBytes.take 2) = some (.ldaImm 0x0042#16) := by
  decide

/-- StepRunsTheDecodedInstruction: with the parameter on, at the last offset that the clause takes, IRQ pending but
masked. -/
theorem witness_StepRunsTheDecodedInstruction_crossing :
    let s := setPin .irq true (put 0x00FFFC [0x5C#8, 0x00#8, 0x80#8, 0x7E#8]
      { start with pc := 0xFFFC#16, plat := crossing })
    s.Ready ∧ (∀ k, k < 4 → NoDevice s.plat (s.fetchAddr k)) ∧ s.pc.toNat + 3 < 65536 ∧
      s.plat.unimplemented.contains (Instr.opcode (.jmlAbsL ⟨0x7E#8, 0x8000#16⟩)) = false ∧
      decoded s.m8 s.x8 s.codeBytes = some (.jmlAbsL ⟨0x7E#8, 0x8000#16⟩) := by
  decide

/-- DefectIsTheOnlyStop: the right side of the equivalence can hold. -/
theorem witness_DefectIsTheOnlyStop :
    let s := put 0x1000 [0x42#8] { start with plat := { Platform.standard with unimplemented := [0x42#8] } }
    s.boundary = .execute s ∧ s.plat.unimplemented.contains s.fetchOpcode.1 = true := by
  decide

/-- ResetStep: held, and pending. -/
theorem witness_ResetStep :
    (State.powerOn.pins.res = false ∧ State.powerOn.run = .resetHeld) ∧
      (beforeReset.pins.res = false ∧ beforeReset.run = .stopped ∧ beforeReset.resetPending = true) := by
  decide

/-- StepsThatDoNothing: a state for each clause. -/
theorem witness_StepsThatDoNothing :
    (setPin .res true start).pins.res = true ∧
      (let s : State := { start with run := .stopped }
       s.pins.res = false ∧ s.resetPending = false ∧ s.run = .stopped) ∧
      (let s := setPin .rdy false start
       s.pins.res = false ∧ s.resetPending = false ∧ s.run = .running ∧ s.pins.rdy = false) ∧
      (let s : State := { setPin .rdy false start with run := .waiting }
       s.pins.res = false ∧ s.resetPending = false ∧ s.run = .waiting ∧ s.pins.rdy = false) ∧
      (let s : State := { start with run := .waiting }
       s.resetPending = false ∧ s.run = .waiting ∧ s.pins.rdy = true ∧
         (s.pins.irq || s.nmiPending || s.abortPending) = false) ∧
      (let s : State := setPin .abort true { start with run := .waiting }
       s.resetPending = false ∧ s.run = .waiting ∧ s.pins.rdy = true ∧
         (s.pins.irq || s.nmiPending || s.abortPending) = true) := by
  decide

/-- The premises of InterruptPriority that its clauses share. -/
abbrev AtBoundary (s : State) : Prop :=
  s.pins.res = false ∧ s.resetPending = false ∧ s.run = .running ∧ s.pins.rdy = true

/-- InterruptPriority: a state for each clause; in the first all three causes are pending. -/
theorem witness_InterruptPriority :
    (let s := setPin .irq true (setPin .nmi true (setPin .abort true start))
     AtBoundary s ∧ s.abortPending = true) ∧
      (let s := setPin .irq true (setPin .nmi true start)
       AtBoundary s ∧ s.abortPending = false ∧ s.nmiPending = true) ∧
      (let s := setPin .irq true { start with p := { Flags.reset with i := false } }
       AtBoundary s ∧ s.abortPending = false ∧ s.nmiPending = false ∧ s.pins.irq = true ∧ s.p.i = false) ∧
      (let s := setPin .irq true start
       AtBoundary s ∧ s.abortPending = false ∧ s.nmiPending = false ∧ s.pins.irq = true ∧ s.p.i = true ∧
         s.plat.unimplemented.contains s.fetchOpcode.1 = false) := by
  decide

/-- RtiUndoesEntry, ReturnUndoesCall and PullUndoesPush: the stack at the bottom of page 1 in emulation mode, where S
wraps. -/
theorem witness_stack_emulation :
    let s : State := { start with sp := 0x0100#16 }
    s.MemInv ∧ s.ModeInv ∧ s.EmulationInv ∧ (∀ a ∈ s.pushAddrs 4, InRegion s.plat a) ∧
      (∀ a ∈ s.pushAddrs 3, InRegion s.plat a) := by
  decide

/-- The same in native mode with S at the bottom of bank 0. -/
theorem witness_stack_native :
    let s : State := { start with sp := 0x0000#16, p := native false false, x := 0xFFFF#16 }
    s.MemInv ∧ s.ModeInv ∧ s.EmulationInv ∧ (∀ a ∈ s.pushAddrs 4, InRegion s.plat a) ∧
      (∀ a ∈ s.pushAddrs 3, InRegion s.plat a) := by
  decide

/-- XceExchangesCarryAndEmulation: both values of C. -/
theorem witness_XceExchangesCarryAndEmulation :
    start.p.c = false ∧ ({ start with p := { native false false with c := true } } : State).p.c = true := by
  decide

/-- A platform whose CYCLES is given by rows: NOP costs 9 at 8 bits, and the second row is never reached. -/
def slowNop : Platform :=
  { Platform.standard with
    cycles := .table [
      { op := 0xEA#8, m8 := true, x8 := true, e := true, dLowZero := true, standard := 2, cycles := 9 },
      { op := 0xEA#8, m8 := true, x8 := true, e := true, dLowZero := true, standard := 2, cycles := 5 }] }

/-- R470: the first row that fits gives the cost; where none fits (native mode) the default stands. -/
theorem test_cycles_table :
    runs [0xEA#8] { start with plat := slowNop } (fun t => t.cyc) = some 9#64 ∧
      runs [0xEA#8] { start with plat := slowNop, p := native true true } (fun t => t.cyc) = some 2#64 := by
  decide

/-- The premise of CyclesFollowTheTable that a row fits. -/
abbrev RowFits (op : Byte) (n : Nat) (s : State) (r : CycleRow) : Prop :=
  r.op = op ∧ r.m8 = s.m8 ∧ r.x8 = s.x8 ∧ r.e = s.p.e ∧ (r.dLowZero = true ↔ loByte s.dp = 0x00#8) ∧ r.standard = n

/-- CyclesFollowTheTable: an opcode that is no branch, a branch that runs, and each form of the parameter. -/
theorem witness_CyclesFollowTheTable :
    (Instr.opcode (.brl 0x0000#16)).toNat ∉ [0x10, 0x30, 0x50, 0x70, 0x80, 0x90, 0xB0, 0xD0, 0xF0] ∧
      (∃ t, exec (.bra 0x80#8) start = .next t) ∧ start.plat.cycles = .standard ∧
      ({ start with plat := { Platform.standard with cycles := .other 0 } } : State).plat.cycles = .other 0 := by
  exact ⟨by decide, ⟨_, rfl⟩, rfl, rfl⟩

/-- CyclesFollowTheTable with a table: no row fits, and a row fits with none before it that does. -/
theorem witness_CyclesFollowTheTable_rows :
    (∃ rows, slowNop.cycles = .table rows ∧ ∀ r ∈ rows, ¬ RowFits 0xEA#8 2 { start with p := native true true } r) ∧
      ∃ r after, slowNop.cycles = .table ([] ++ r :: after) ∧ RowFits 0xEA#8 2 start r := by
  exact ⟨⟨_, rfl, by decide⟩, _, _, rfl, by decide⟩

/-- EffectiveAddresses: no device answers at the pointer's bytes, at the top of bank 0 and on a platform with a device. -/
theorem witness_EffectiveAddresses :
    let s : State := { start with dp := 0xFFFF#16, p := native true true, plat := openPlatform, sp := 0xFFFE#16 }
    let at0 : Word := s.dp + zext16 0x00#8
    (∀ n, n < 2 → NoDevice s.plat (nextAddr s.plat ⟨0x00#8, at0⟩ n)) ∧
      (∀ n, n < 2 → NoDevice s.plat (nextAddr s.plat ⟨0x00#8, at0 + trunc s.wX s.x⟩ n)) ∧
      (∀ n, n < 3 → NoDevice s.plat (nextAddr s.plat ⟨0x00#8, at0⟩ n)) ∧
      (∀ n, n < 2 → NoDevice s.plat (nextAddr s.plat ⟨0x00#8, s.sp + zext16 0x01#8⟩ n)) := by
  decide

/-- LoadsReadLittleEndian: the last byte of a bank, 16 bits. -/
theorem witness_LoadsReadLittleEndian :
    let s : State := { start with p := native false true }
    (∀ u, Mode.abs 0xFFFF#16 ≠ .immM u) ∧ (∀ u, Mode.abs 0xFFFF#16 ≠ .immX u) ∧ (∀ u, Mode.abs 0xFFFF#16 ≠ .imm8 u) ∧
      ∀ a ∈ accessAddrs s.plat .w16 (resolve (.abs 0xFFFF#16) s).addr, NoDevice s.plat a := by
  refine ⟨?_, ?_, ?_, ?_⟩
  · intro u h; cases h
  · intro u h; cases h
  · intro u h; cases h
  · decide

/-- LoadAfterStoreGivesTheRegister: 16 bits at the last byte of a bank. -/
theorem witness_LoadAfterStoreGivesTheRegister :
    let s : State := { start with a := 0xBEEF#16, dbr := 0xFF#8, p := native false true }
    s.MemInv ∧ ∀ x ∈ accessAddrs s.plat s.wA ⟨s.dbr, 0xFFFF#16⟩, InRegion s.plat x := by
  decide

/-- BusDispatch: an address in a region (its last), one that only a device claims (its first), and one of neither. -/
theorem witness_BusDispatch :
    (∃ d ∈ openPlatform.devices, ∃ r ∈ d.regions,
        r.first ≤ (⟨0x00#8, 0xFFFF#16⟩ : Addr).asInteger ∧ (⟨0x00#8, 0xFFFF#16⟩ : Addr).asInteger ≤ r.last) ∧
      (¬ ∃ d ∈ openPlatform.devices, ∃ r ∈ d.regions,
        r.first ≤ (⟨0x01#8, 0x0000#16⟩ : Addr).asInteger ∧ (⟨0x01#8, 0x0000#16⟩ : Addr).asInteger ≤ r.last) ∧
      (∃ b d, openPlatform.devices = [b] ++ d :: [] ∧
        decodeWindows b.windows (⟨0x01#8, 0x0000#16⟩ : Addr).asInteger = none ∧
        decodeWindows d.windows (⟨0x01#8, 0x0000#16⟩ : Addr).asInteger = some 0) ∧
      (¬ ∃ d ∈ openPlatform.devices, ∃ r ∈ d.regions,
        r.first ≤ (⟨0x02#8, 0x0000#16⟩ : Addr).asInteger ∧ (⟨0x02#8, 0x0000#16⟩ : Addr).asInteger ≤ r.last) ∧
      ∀ d ∈ openPlatform.devices, decodeWindows d.windows (⟨0x02#8, 0x0000#16⟩ : Addr).asInteger = none := by
  exact ⟨by decide, by decide, ⟨_, _, rfl, by decide, by decide⟩, by decide, by decide⟩

/-- AddressArithmetic: the largest address, and deltas at both ends of the range, agreeing and not. -/
theorem witness_AddressArithmetic :
    (16777215 : Nat) < 16777216 ∧
      ((-16711680 : Int) ≤ 16711680 ∧
        (⟨0xFF#8, 0xFFFF#16⟩ : Addr).withOffsetNoWrap 16711680 ≠ (⟨0xFF#8, 0xFFFF#16⟩ : Addr).withOffsetWrap 16711680) ∧
      ((⟨0x00#8, 0x0000#16⟩ : Addr).withOffsetNoWrap (-16711680) ≠
        (⟨0x00#8, 0x0000#16⟩ : Addr).withOffsetWrap (-16711680)) ∧
      (⟨0xFF#8, 0x0000#16⟩ : Addr).withOffsetNoWrap 65535 = (⟨0xFF#8, 0x0000#16⟩ : Addr).withOffsetWrap 65535 := by
  decide +kernel

/-- BinaryAdderAddsIntegers and OverflowIsSignedRange: the largest operands of each width. -/
theorem witness_BinaryAdder :
    (0x00FF#16 : Word).toNat < 2 ^ Width.bits .w8 ∧ (0xFFFF#16 : Word).toNat < 2 ^ Width.bits .w16 := by
  decide

/-- DecimalArithmeticIsDecimal: operands of digits, the largest among them. -/
theorem witness_DecimalArithmeticIsDecimal :
    isBcd 0x99#8 = true ∧ isBcd 0x00#8 = true ∧ isBcd (loByte 0x9999#16) = true ∧ isBcd (hiByte 0x9999#16) = true := by
  decide

/-- StepKeepsModeInvariants and StepKeepsMemoryCanonical: emulation mode and native mode with memory listed. -/
theorem witness_invariants :
    (start.ModeInv ∧ start.MemInv ∧ ∃ t, step start = .next t) ∧
      (let s := put 0x1000 [0xE2#8, 0x30#8] { start with x := 0x1234#16, p := native false false }
       s.ModeInv ∧ s.MemInv ∧ ∃ t, step s = .next t) := by
  exact ⟨⟨by decide, by decide, _, rfl⟩, by decide, by decide, _, rfl⟩

/-- WritersOfTheModeAndBankRegisters: each of the five can change. -/
theorem witness_WritersOfTheModeAndBankRegisters :
    (∃ t, exec .xce start = .next t ∧ t.p.e ≠ start.p.e) ∧
      (∃ t, exec .tcd { start with a := 0x0001#16 } = .next t ∧ t.dp ≠ start.dp) ∧
      (∃ t, exec (.mvn 0x01#8 0x00#8) start = .next t ∧ t.dbr ≠ start.dbr) ∧
      (∃ t, exec (.jmlAbsL ⟨0x01#8, 0x0000#16⟩) start = .next t ∧ t.pbr ≠ start.pbr) ∧
      (∃ t, exec .stp start = .next t ∧ t.run ≠ start.run) := by
  exact ⟨⟨_, rfl, by decide⟩, ⟨_, rfl, by decide⟩, ⟨_, rfl, by decide⟩, ⟨_, rfl, by decide⟩, _, rfl, by decide⟩

/-- WritersOfTheStatusFlags: each flag can change, and an instruction of each complement list runs. -/
theorem witness_WritersOfTheStatusFlags :
    (∃ t, exec .sec start = .next t ∧ t.p.c ≠ start.p.c) ∧
      (∃ t, exec (.sep 0x40#8) start = .next t ∧ t.p.v ≠ start.p.v) ∧
      (∃ t, exec .cli start = .next t ∧ t.p.i ≠ start.p.i) ∧
      (∃ t, exec .sed start = .next t ∧ t.p.d ≠ start.p.d) ∧
      (∃ t, exec .php start = .next t ∧ t.p.b ≠ start.p.b) ∧
      (∃ t, exec (.sep 0x30#8) { start with p := native false false } = .next t ∧ t.p.m ≠ false ∧ t.p.x ≠ false) ∧
      (∃ t, exec .nop start = .next t ∧ (Instr.opcode .nop).toNat = 0xEA) := by
  exact ⟨⟨_, rfl, by decide⟩, ⟨_, rfl, by decide⟩, ⟨_, rfl, by decide⟩, ⟨_, rfl, by decide⟩, ⟨_, rfl, by decide⟩,
    ⟨_, rfl, by decide, by decide⟩, _, rfl, by decide⟩

/-- StoresChangeOnlyTheirOperand: an instruction of each clause, with an address outside the stored bytes. -/
theorem witness_StoresChangeOnlyTheirOperand :
    (∃ t, exec (.ldaAbs 0xFFFF#16) start = .next t) ∧
      (∃ t, exec (.staAbs 0xFFFF#16) { start with p := native false true } = .next t ∧
        ∀ x ∈ accessAddrs start.plat .w16 (resolve (.abs 0xFFFF#16) start).addr, 0x010000 ≠ x.asInteger) ∧
      (∃ t, exec (.stxAbs 0xFFFF#16) { start with p := native true false } = .next t ∧
        ∀ x ∈ accessAddrs start.plat .w16 (resolve (.abs 0xFFFF#16) start).addr, 0x010000 ≠ x.asInteger) := by
  exact ⟨⟨_, rfl⟩, ⟨_, rfl, by decide⟩, _, rfl, by decide⟩

/-- PushesAndMovesChangeOnlyTheirTarget: an instruction of each clause runs, at the bottom of page 1, where the
stacked bytes wrap to its top; an address outside. -/
theorem witness_PushesAndMovesChangeOnlyTheirTarget :
    let s : State := { start with sp := 0x0100#16 }
    (∃ t, exec .pha s = .next t) ∧ (∃ t, exec .phx s = .next t) ∧ (∃ t, exec .php s = .next t) ∧
      (∃ t, exec .phd s = .next t) ∧ (∃ t, exec (.jslAbsL ⟨0x01#8, 0x0000#16⟩) s = .next t) ∧
      (∃ t, exec (.brk 0x00#8) s = .next t) ∧ (∀ x ∈ s.pushAddrs 4, 0x0101 ≠ x.asInteger) ∧
      (∃ t, exec (.mvn 0x7E#8 0x01#8) s = .next t) ∧ ∃ t, exec (.mvp 0x7E#8 0x01#8) s = .next t := by
  exact ⟨⟨_, rfl⟩, ⟨_, rfl⟩, ⟨_, rfl⟩, ⟨_, rfl⟩, ⟨_, rfl⟩, ⟨_, rfl⟩, by decide, ⟨_, rfl⟩, _, rfl⟩

end Sys2Proof.Tests
end

section
/-! SUPPORT. What can end a step: every instruction has a meaning that answers a next state, so a fault can only come
from the handler check before the fetch of the operands (R121), and nothing refuses (R6). -/

namespace Sys2Proof.Machine

/-- R117, R119: every arm of `exec` is a meaning that answers a next state. -/
theorem exec_eq_next (i : Instr) (s : State) : ∃ t, exec i s = .next t := by
  cases i <;> exact ⟨_, rfl⟩

/-- R121: an opcode byte with no handler is the defect. -/
theorem runInstr_unimplemented {s : State} (h : s.plat.unimplemented.contains s.fetchOpcode.1 = true) :
    runInstr s = .fault (.defect s.fetchOpcode.1) :=
  if_pos h

/-- R406: an opcode byte with a handler runs the fetched instruction. -/
theorem runInstr_implemented {s : State} (h : s.plat.unimplemented.contains s.fetchOpcode.1 = false) :
    runInstr s = exec s.fetch.instr { s with bus := s.fetch.bus } :=
  if_neg (Bool.eq_false_iff.mp h)

/-- All that fetching and executing can end in: the defect of R121, or a next state. -/
theorem runInstr_cases (s : State) :
    (s.plat.unimplemented.contains s.fetchOpcode.1 = true ∧ runInstr s = .fault (.defect s.fetchOpcode.1)) ∨
      (s.plat.unimplemented.contains s.fetchOpcode.1 = false ∧ ∃ t, runInstr s = .next t) := by
  cases h : s.plat.unimplemented.contains s.fetchOpcode.1 with
  | true => exact .inl ⟨rfl, runInstr_unimplemented h⟩
  | false => exact .inr ⟨rfl, runInstr_implemented h ▸ exec_eq_next _ _⟩

/-- R6: fetching and executing refuses nothing. -/
theorem runInstr_ne_refused (s : State) (r : Refusal) : runInstr s ≠ .refused r := by
  rcases runInstr_cases s with ⟨-, h⟩ | ⟨-, t, h⟩ <;> simp [h]

/-- R121: fetching and executing faults exactly at an opcode byte with no handler, and the fault names it. -/
theorem runInstr_eq_fault_iff (s : State) (g : Fault) :
    runInstr s = .fault g ↔
      s.plat.unimplemented.contains s.fetchOpcode.1 = true ∧ g = .defect s.fetchOpcode.1 := by
  rcases runInstr_cases s with ⟨hu, h⟩ | ⟨hu, t, h⟩
  · simp only [h, hu, true_and, Host.Outcome.fault.injEq, eq_comm]
  · simp only [h, hu, reduceCtorEq, Bool.false_eq_true, false_and]

/-- R402 to R411: a step that the boundary ends is that state. -/
theorem step_of_boundary_done {s t : State} (h : s.boundary = .done t) : step s = .next t := by
  simp only [step, h]

/-- R406: a step that the boundary lets through fetches and executes. -/
theorem step_of_boundary_execute {s u : State} (h : s.boundary = .execute u) : step s = runInstr u := by
  simp only [step, h]

/-- R6: no step refuses. -/
theorem step_ne_refused (s : State) (r : Refusal) : step s ≠ .refused r := by
  cases hb : s.boundary with
  | done t => simp [step_of_boundary_done hb]
  | execute u => rw [step_of_boundary_execute hb]; exact runInstr_ne_refused u r

/-- R121, R406: a step faults exactly when the instruction that the boundary lets through has no handler. -/
theorem step_eq_fault_iff (s : State) (g : Fault) :
    step s = .fault g ↔ ∃ u, s.boundary = .execute u ∧ u.plat.unimplemented.contains u.fetchOpcode.1 = true ∧
      g = .defect u.fetchOpcode.1 := by
  cases hb : s.boundary with
  | done t => simp [step_of_boundary_done hb]
  | execute u =>
    rw [step_of_boundary_execute hb, runInstr_eq_fault_iff]
    simp only [Boundary.execute.injEq, exists_eq_left']

/-- Settles O7: the step is the boundary's state or `runInstr`, whose only stop is the handler check of R121. -/
theorem defectIsTheOnlyStop : Obligations.DefectIsTheOnlyStop :=
  fun s => ⟨step_ne_refused s, step_eq_fault_iff s⟩

end Sys2Proof.Machine
end

section
/-! SUPPORT. The bits of the encoded status byte, one by one, and what an entry and PHP write of the flags. -/

namespace Sys2Proof.Machine

/-- R43: the encoded status, bit upon bit from bit 0 up; M and X are out of it in emulation mode, where bit 5 reads 1
and bit 4 is B (decision D13). -/
theorem Flags.encode_eq_bits (p : Flags) :
    p.encode = BitVec.ofNat 8 (Nat.bit p.c (Nat.bit p.z (Nat.bit p.i (Nat.bit p.d
      (Nat.bit (if p.e then p.b else p.x) (Nat.bit (p.e || p.m) (Nat.bit p.v (Nat.bit p.n 0)))))))) := by
  have hm : (if p.e then true else p.m) = (p.e || p.m) := by cases p.e <;> rfl
  unfold Flags.encode
  rw [hm]
  simp only [Nat.bit_val]
  congr 1
  omega

/-- R43: each bit of the encoded status is the flag that the layout names. -/
theorem Flags.getLsbD_encode (p : Flags) :
    p.encode.getLsbD 7 = p.n ∧ p.encode.getLsbD 6 = p.v ∧ p.encode.getLsbD 5 = (p.e || p.m) ∧
      p.encode.getLsbD 4 = (if p.e then p.b else p.x) ∧ p.encode.getLsbD 3 = p.d ∧ p.encode.getLsbD 2 = p.i ∧
      p.encode.getLsbD 1 = p.z ∧ p.encode.getLsbD 0 = p.c := by
  rw [Flags.encode_eq_bits]
  simp only [BitVec.getLsbD_ofNat, Nat.testBit_bit_succ, Nat.testBit_bit_zero, Nat.reduceLT, decide_true, Bool.true_and,
    and_self]

/-- R44: decoding an encoded status gives it back: in each mode the flags that the byte leaves out stay. -/
theorem Flags.decode_encode (p : Flags) : p.decode p.encode = p := by
  obtain ⟨hn, hv, hm, hx, hd, hi, hz, hc⟩ := p.getLsbD_encode
  unfold Flags.decode
  rw [hn, hv, hm, hx, hd, hi, hz, hc]
  obtain ⟨n, v, m, x, d, i, z, c, b, e⟩ := p
  cases e <;> rfl

/-- Settles O52: the bits are the layout's, and decoding reads them back. -/
theorem statusByteRoundTrip : Obligations.StatusByteRoundTrip :=
  fun p v => ⟨p.decode_encode, p.decode_e v, p.getLsbD_encode⟩

/-- R411: the entry writes B alone before it pushes, and in emulation mode alone. -/
theorem Flags.entering_eq (k : Cause) (p : Flags) :
    p.entering k = { p with b := if p.e then k.breakBit else p.b } := by
  unfold Flags.entering; split <;> rfl

/-- R273: PHP writes B alone, and in emulation mode alone. -/
theorem Flags.pushed_eq (p : Flags) : p.pushed = { p with b := if p.e then true else p.b } := by
  unfold Flags.pushed; split <;> rfl

end Sys2Proof.Machine
end

section
/-! SUPPORT. Every step keeps the invariants of R47 and R50: what each stack operation, interrupt entry, return, reset
and instruction does to E, M, X, the index registers and S. -/

namespace Sys2Proof.Machine

/-! ## Operations -/

/-- The invariants speak of E, M, X, the platform, the index registers and S alone. -/
theorem State.modeInv_congr {s t : State} (h : s.ModeInv) (he : t.p.e = s.p.e) (hm : t.p.m = s.p.m)
    (hx : t.p.x = s.p.x) (hp : t.plat = s.plat) (hX : t.x = s.x) (hY : t.y = s.y) (hS : t.sp = s.sp) : t.ModeInv :=
  State.modeInv_of h he hm hx hp (.inl hX) (.inl hY) (.inl hS)

/-- S may move, if it ends in page 1 wherever the stack is confined to it. -/
theorem State.modeInv_of_sp {s t : State} (h : s.ModeInv) (he : t.p.e = s.p.e) (hm : t.p.m = s.p.m)
    (hx : t.p.x = s.p.x) (hp : t.plat = s.plat) (hX : t.x = s.x) (hY : t.y = s.y)
    (hS : s.page1 = true → hiByte t.sp = 0x01#8) : t.ModeInv :=
  State.modeInv_of h he hm hx hp (.inl hX) (.inl hY) (.inr hS)

/-- R90 to R93, R286: after a push or a pull S stands in page 1 wherever the stack is confined to it. -/
theorem State.push8_page (s : State) (v : Byte) : s.page1 = true → hiByte (s.push8 v).sp = 0x01#8 :=
  State.pageInv_decS s

theorem State.push16_page (s : State) (v : Word) : s.page1 = true → hiByte (s.push16 v).sp = 0x01#8 :=
  State.push8_page (s.push8 (hiByte v)) (loByte v)

theorem State.push24_page (s : State) (k : Byte) (v : Word) : s.page1 = true → hiByte (s.push24 k v).sp = 0x01#8 :=
  State.push16_page (s.push8 k) v

theorem State.pushW_page (s : State) (w : Width) (v : Word) : s.page1 = true → hiByte (s.pushW w v).sp = 0x01#8 := by
  cases w with
  | w8 => exact State.push8_page s (loByte v)
  | w16 => exact State.push16_page s v

theorem State.pull8_page (s : State) : s.page1 = true → hiByte s.pull8.2.sp = 0x01#8 := State.pageInv_incS s

theorem State.pull16_page (s : State) : s.page1 = true → hiByte s.pull16.2.sp = 0x01#8 := State.pull8_page s.pull8.2

theorem State.pull24_page (s : State) : s.page1 = true → hiByte s.pull24.2.sp = 0x01#8 := State.pull8_page s.pull16.2

theorem State.pullW_page (s : State) (w : Width) : s.page1 = true → hiByte (s.pullW w).2.sp = 0x01#8 := by
  cases w with
  | w8 => exact State.pull8_page s
  | w16 => exact State.pull16_page s

theorem State.push16_modeInv {s : State} (h : s.ModeInv) (v : Word) : (s.push16 v).ModeInv :=
  State.push8_modeInv (State.push8_modeInv h _) _

theorem State.pull16_modeInv {s : State} (h : s.ModeInv) : s.pull16.2.ModeInv :=
  State.pull8_modeInv (State.pull8_modeInv h)

/-- R45: `reset_bits` keeps the invariants: it sets no flag, and in emulation mode its mask leaves M and X. -/
theorem State.resetBits_modeInv {s : State} (h : s.ModeInv) (v : Byte) : (s.resetBits v).ModeInv := by
  refine State.setP_modeInv h (s.p.resetBits v) false rfl ?_ ?_
  · intro e; simp [Flags.resetBits, Flags.mask, e]
  · intro _ hx hx'; simp [Flags.resetBits, hx'] at hx

/-- R411: the pushes of an entry keep the invariants; of the flags they write B alone. -/
theorem State.enterPushes_modeInv {s : State} (h : s.ModeInv) (k : Cause) (ret : Word) :
    (s.enterPushes k ret).ModeInv := by
  have hb : (if s.p.e then s else s.push8 s.pbr).ModeInv := by
    split
    · exact h
    · exact State.push8_modeInv h _
  have hp := State.push8_modeInv (State.push16_modeInv hb ret) (s.p.entering k).encode
  rw [State.enterPushes_eq, Flags.entering_eq]
  refine State.modeInv_congr hp ?_ ?_ ?_ rfl rfl rfl rfl <;> split <;> rfl

/-- R411: an interrupt entry keeps the invariants. -/
theorem State.enter_modeInv {s : State} (h : s.ModeInv) (k : Cause) (ret : Word) : (s.enter k ret).ModeInv :=
  State.modeInv_congr (State.enterPushes_modeInv h k ret) rfl rfl rfl rfl rfl rfl rfl

/-- R342: RTI's pulls keep the invariants. -/
theorem State.returnFromInterrupt_modeInv {s : State} (h : s.ModeInv) : s.returnFromInterrupt.ModeInv := by
  have ho := State.pull16_modeInv (State.decodeP_modeInv (State.pull8_modeInv h) s.pull8.1)
  unfold State.returnFromInterrupt
  dsimp only
  split
  · exact ho
  · exact State.modeInv_congr (State.pull8_modeInv ho) rfl rfl rfl rfl rfl rfl rfl

/-- R450: the reset sequence establishes the invariants, whatever the state before. -/
theorem State.resetSequence_modeInv (s : State) : s.resetSequence.ModeInv :=
  have hx : hiByte s.resetSequence.x = 0x00#8 := hiByte_trunc_w8 s.x
  have hy : hiByte s.resetSequence.y = 0x00#8 := hiByte_trunc_w8 s.y
  ⟨fun _ => ⟨rfl, rfl, hx, hy, fun _ => hiByte_joinBytes _ _⟩, fun _ => ⟨hx, hy⟩⟩

/-! ## Instructions -/

/-- R329: XCE keeps the invariants: it establishes those of emulation mode, and on leaving it X still says how wide the
index registers are. -/
theorem xce_modeInv {s : State} (h : s.ModeInv) (op : Byte) : (xce op s).ModeInv := by
  rcases xce_cases op s with ⟨-, e⟩ | ⟨-, e⟩
  · rw [e]
    have hx := hiByte_trunc_w8 s.x
    have hy := hiByte_trunc_w8 s.y
    exact ⟨fun _ => ⟨rfl, rfl, hx, hy, fun _ => hiByte_joinBytes _ _⟩, fun _ => ⟨hx, hy⟩⟩
  · rw [e]
    exact ⟨nofun, fun hx => h.2 (by simpa [State.x8, Flags.x8] using .inr hx)⟩

/-- R362: a block move steps the index registers at their width. -/
theorem blockMove_modeInv {s : State} (h : s.ModeInv) (op : Byte) (up : Bool) (dst src : Byte) :
    (blockMove op up dst src s).ModeInv := by
  obtain ⟨hx, hy⟩ := blockLoop_xy up dst src s.a.toNat s
  rw [blockMove_eq]
  exact State.modeInv_of h rfl rfl rfl rfl (.inr ⟨_, hx⟩) (.inr ⟨_, hy⟩) (.inl rfl)

/-- R305, R310: a transfer to S puts it in page 1 in emulation mode. -/
theorem transferToS_page (op : Byte) (v : Word) (s : State) :
    s.page1 = true → hiByte (transferToS op v s).sp = 0x01#8 := by
  intro hp
  have he : s.p.e = true := (Bool.and_eq_true_iff.mp hp).1
  simp [transferToS_eq, he, rehome]

/-- R47, R50: every instruction keeps the invariants. Those not named write neither E, M, X, an index register nor S. -/
theorem exec_modeInv {i : Instr} {s t : State} (h : s.ModeInv) (ht : exec i s = .next t) : t.ModeInv := by
  cases i with
  | xce => cases ht; exact xce_modeInv h _
  | rep v => cases ht; exact State.modeInv_congr (State.resetBits_modeInv h v) rfl rfl rfl rfl rfl rfl rfl
  | sep v => cases ht; exact State.modeInv_congr (State.setBits_modeInv h v) rfl rfl rfl rfl rfl rfl rfl
  | plp =>
    cases ht
    exact State.modeInv_congr (State.decodeP_modeInv (State.pull8_modeInv h) s.pull8.1) rfl rfl rfl rfl rfl rfl rfl
  | rti => cases ht; exact State.modeInv_congr (State.returnFromInterrupt_modeInv h) rfl rfl rfl rfl rfl rfl rfl
  | brk => cases ht; exact State.modeInv_congr (State.enter_modeInv h .brk (s.pc + 2#16)) rfl rfl rfl rfl rfl rfl rfl
  | cop => cases ht; exact State.modeInv_congr (State.enter_modeInv h .cop (s.pc + 2#16)) rfl rfl rfl rfl rfl rfl rfl
  | mvn | mvp => cases ht; exact blockMove_modeInv h _ _ _ _
  | ldxImm | ldxDp | ldxAbs | ldxDpY | ldxAbsY | inx | dex | tax | tsx | tyx =>
    cases ht; exact State.modeInv_of h rfl rfl rfl rfl (.inr ⟨_, rfl⟩) (.inl rfl) (.inl rfl)
  | ldyImm | ldyDp | ldyAbs | ldyDpX | ldyAbsX | iny | dey | tay | txy =>
    cases ht; exact State.modeInv_of h rfl rfl rfl rfl (.inl rfl) (.inr ⟨_, rfl⟩) (.inl rfl)
  | plx =>
    cases ht; rw [plx_eq]
    exact State.modeInv_of h rfl rfl rfl rfl (.inr ⟨_, rfl⟩) (.inl rfl) (.inr (State.pullW_page s _))
  | ply =>
    cases ht; rw [ply_eq]
    exact State.modeInv_of h rfl rfl rfl rfl (.inl rfl) (.inr ⟨_, rfl⟩) (.inr (State.pullW_page s _))
  | txs | tcs => cases ht; exact State.modeInv_of_sp h rfl rfl rfl rfl rfl rfl (transferToS_page _ _ s)
  | php =>
    cases ht; rw [php_eq, Flags.pushed_eq]
    exact State.modeInv_of_sp h rfl rfl rfl rfl rfl rfl (State.push8_page s s.p.pushed.encode)
  | phb => cases ht; exact State.modeInv_of_sp h rfl rfl rfl rfl rfl rfl (State.push8_page s s.dbr)
  | phk => cases ht; exact State.modeInv_of_sp h rfl rfl rfl rfl rfl rfl (State.push8_page s s.pbr)
  | pha | phx | phy =>
    cases ht; rw [pushReg_eq]; exact State.modeInv_of_sp h rfl rfl rfl rfl rfl rfl (State.pushW_page s _ _)
  | phd | pea | per | jsrAbs =>
    cases ht; simp only [phd_eq, pea_eq, per_eq, jsr_eq]
    exact State.modeInv_of_sp h rfl rfl rfl rfl rfl rfl (State.push16_page s _)
  | pei d =>
    cases ht; rw [pei_eq]
    exact State.modeInv_of_sp h rfl rfl rfl rfl rfl rfl (State.push16_page (afterPeiWord d s) _)
  | jsrAbsXInd a =>
    cases ht; rw [jsrPointer_eq]
    exact State.modeInv_of_sp h rfl rfl rfl rfl rfl rfl (State.push16_page (afterPointer (.absXInd a) s) _)
  | jslAbsL =>
    cases ht; rw [jsl_eq]; exact State.modeInv_of_sp h rfl rfl rfl rfl rfl rfl (State.push24_page s _ _)
  | pla => cases ht; rw [pla_eq]; exact State.modeInv_of_sp h rfl rfl rfl rfl rfl rfl (State.pullW_page s _)
  | plb => cases ht; exact State.modeInv_of_sp h rfl rfl rfl rfl rfl rfl (State.pull8_page s)
  | pld | rts => cases ht; exact State.modeInv_of_sp h rfl rfl rfl rfl rfl rfl (State.pull16_page s)
  | rtl => cases ht; exact State.modeInv_of_sp h rfl rfl rfl rfl rfl rfl (State.pull24_page s)
  | _ => cases ht; exact State.modeInv_congr h rfl rfl rfl rfl rfl rfl rfl

/-! ## Steps -/

/-- R406: an instruction fetched and executed keeps the invariants; the fetch itself writes the bus alone. -/
theorem runInstr_modeInv {s t : State} (h : s.ModeInv) (ht : runInstr s = .next t) : t.ModeInv := by
  cases hu : s.plat.unimplemented.contains s.fetchOpcode.1 with
  | true => rw [runInstr_unimplemented hu] at ht; cases ht
  | false =>
    rw [runInstr_implemented hu] at ht
    exact exec_modeInv (s := { s with bus := s.fetch.bus }) h ht

/-- The state that a boundary leaves, whether the step ends in it or an instruction is still to run, meets `P`. -/
def Boundary.Leaves (P : State → Prop) : Boundary → Prop
  | .done t => P t
  | .execute t => P t

/-- R406, R410: the interrupt check keeps the invariants. -/
theorem State.interruptCheck_modeInv {s : State} (h : s.ModeInv) : s.interruptCheck.Leaves State.ModeInv := by
  rcases s.interruptCheck_cases with e | e | e | e <;> rw [e]
  · exact State.enter_modeInv (s := { s with abortPending := false }) h .abort s.pc
  · exact State.enter_modeInv (s := { s with nmiPending := false }) h .nmi s.pc
  · exact State.enter_modeInv h .irq s.pc
  · exact h

/-- R402 to R406: everything before the fetch keeps the invariants. -/
theorem State.boundary_modeInv {s : State} (h : s.ModeInv) : s.boundary.Leaves State.ModeInv := by
  rcases s.boundary_cases with e | e | e | e <;> rw [e]
  · exact h
  · exact s.resetSequence_modeInv
  · exact h
  · exact State.interruptCheck_modeInv (s := { s with run := .running }) h

/-- Settles O54: a step is what the boundary does, then at most one instruction, and each keeps the invariants. -/
theorem stepKeepsModeInvariants : Obligations.StepKeepsModeInvariants := by
  intro s t h ht
  have hb := State.boundary_modeInv h
  cases e : s.boundary with
  | done u =>
    rw [e] at hb
    rw [step_of_boundary_done e] at ht
    cases ht
    exact hb
  | execute u =>
    rw [e] at hb
    rw [step_of_boundary_execute e] at ht
    exact runInstr_modeInv hb ht

end Sys2Proof.Machine
end

section
/-! SUPPORT. Which instructions write E, D, DBR, PBR, the run state and each status flag. The clauses of each of the two
statements are a structure over the opcode lists that the statement gives; a clause that a proof leaves out holds by
evaluation: the meaning's record keeps the field. -/

namespace Sys2Proof.Machine

/-! ## Flags -/

/-- R44: in native mode a status byte leaves B. -/
theorem Flags.e_of_decode_b {p : Flags} {v : Byte} (h : (p.decode v).b ≠ p.b) : p.e = true := by
  by_contra he; simp [Flags.decode, he] at h

/-- R44 to R46: in emulation mode a status byte and the masks of REP and SEP leave M and X. -/
theorem Flags.native_of_decode_mx {p : Flags} {v : Byte} (h : (p.decode v).m ≠ p.m ∨ (p.decode v).x ≠ p.x) :
    p.e = false := by
  cases he : p.e with
  | true => simp [Flags.decode, he] at h
  | false => rfl

theorem Flags.native_of_resetBits_mx {p : Flags} {v : Byte}
    (h : (p.resetBits v).m ≠ p.m ∨ (p.resetBits v).x ≠ p.x) : p.e = false := by
  cases he : p.e with
  | true => simp [Flags.resetBits, Flags.mask, he] at h
  | false => rfl

theorem Flags.native_of_setBits_mx {p : Flags} {v : Byte}
    (h : (p.setBits v).m ≠ p.m ∨ (p.setBits v).x ≠ p.x) : p.e = false := by
  cases he : p.e with
  | true => simp [Flags.setBits, Flags.mask, he] at h
  | false => rfl

/-! ## The mode and bank registers -/

/-- What an instruction at opcode `op` does to the registers that few instructions write, where `dps`, `dbrs`, `pbrs`
and `runs` are the opcodes of those that may write D, DBR, PBR and the run state. -/
structure ControlWriters (op : Nat) (dps dbrs pbrs runs : List Nat) (s t : State) : Prop where
  e : t.p.e ≠ s.p.e → op = 0xFB := by exact (absurd rfl ·)
  dp : t.dp ≠ s.dp → op ∈ dps := by exact (absurd rfl ·)
  dbr : t.dbr ≠ s.dbr → op ∈ dbrs := by exact (absurd rfl ·)
  pbr : t.pbr ≠ s.pbr → op ∈ pbrs := by exact (absurd rfl ·)
  run : t.run ≠ s.run → op ∈ runs := by exact (absurd rfl ·)
  pins : t.pins = s.pins := by rfl
  plat : t.plat = s.plat := by rfl
  nmi : t.nmiPending = s.nmiPending := by rfl
  abort : t.abortPending = s.abortPending := by rfl
  reset : t.resetPending = s.resetPending := by rfl

theorem ControlWriters.clauses {op : Nat} {dps dbrs pbrs runs : List Nat} {s t : State}
    (h : ControlWriters op dps dbrs pbrs runs s t) :
    (t.p.e ≠ s.p.e → op = 0xFB) ∧ (t.dp ≠ s.dp → op ∈ dps) ∧ (t.dbr ≠ s.dbr → op ∈ dbrs) ∧
      (t.pbr ≠ s.pbr → op ∈ pbrs) ∧ (t.run ≠ s.run → op ∈ runs) ∧ t.pins = s.pins ∧ t.plat = s.plat ∧
      t.nmiPending = s.nmiPending ∧ t.abortPending = s.abortPending ∧ t.resetPending = s.resetPending :=
  ⟨h.e, h.dp, h.dbr, h.pbr, h.run, h.pins, h.plat, h.nmi, h.abort, h.reset⟩

/-- An instruction that writes none of these registers, at any opcode. -/
theorem ControlWriters.of_eq {op : Nat} {dps dbrs pbrs runs : List Nat} {s t : State}
    (h : t = { s with a := t.a, x := t.x, y := t.y, sp := t.sp, pc := t.pc, cyc := t.cyc, bus := t.bus,
                      p := { t.p with e := s.p.e } }) :
    ControlWriters op dps dbrs pbrs runs s t := by
  rw [h]; exact {}

/-- Settles O56: the instructions named with a clause write that register; all others keep all of them. -/
theorem writersOfTheModeAndBankRegisters : Obligations.WritersOfTheModeAndBankRegisters := by
  intro i s t h
  refine ControlWriters.clauses ?_
  cases i with
  | xce => cases h; rcases xce_cases 0xFB#8 s with ⟨-, e⟩ | ⟨-, e⟩ <;> rw [e] <;> exact { e := fun _ => rfl }
  | pld | tcd => cases h; simp only [pld_eq, tcd_eq]; exact { dp := fun _ => by decide }
  | plb => cases h; exact { dbr := fun _ => by decide }
  | mvn | mvp => cases h; rw [blockMove_eq]; dsimp only [Instr.opcode]; exact { dbr := fun _ => by decide }
  | jmlAbsL | jmlAbsIndL | jslAbsL | rtl =>
    cases h; simp only [jml_eq, jmlPointer_eq, jsl_eq, rtl_eq, Instr.opcode]; exact { pbr := fun _ => by decide }
  | brk | cop =>
    cases h; simp only [softwareInterrupt_eq, Flags.entering_eq, Instr.opcode]
    exact { pbr := fun _ => by decide }
  | rti => cases h; rw [rti_eq]; exact { e := (absurd (Flags.decode_e _ _) ·), pbr := fun _ => by decide }
  | plp => cases h; rw [plp_eq]; exact { e := (absurd (Flags.decode_e _ _) ·) }
  | wai | stp => cases h; exact { run := fun _ => by decide }
  | php => cases h; rw [php_eq, Flags.pushed_eq]; exact .of_eq rfl
  | pha | phx | phy | pla | plx | ply => cases h; simp only [pushReg_eq, pla_eq, plx_eq, ply_eq]; exact .of_eq rfl
  | _ => cases h; exact .of_eq rfl

/-! ## The status flags -/

/-- What an instruction at opcode `op` makes of the flags `p`, where `cs` to `mxs` are the opcodes of those that may
write C, V, I, the D flag, B, and M or X, and `ns` and `zs` of those that keep N and Z. -/
structure FlagWriters (op : Nat) (cs vs is ds bs mxs ns zs : List Nat) (p q : Flags) : Prop where
  c : q.c ≠ p.c → op ∈ cs := by exact (absurd rfl ·)
  v : q.v ≠ p.v → op ∈ vs := by exact (absurd rfl ·)
  i : q.i ≠ p.i → op ∈ is := by exact (absurd rfl ·)
  d : q.d ≠ p.d → op ∈ ds := by exact (absurd rfl ·)
  b : q.b ≠ p.b → p.e = true ∧ op ∈ bs := by exact (absurd rfl ·)
  mx : q.m ≠ p.m ∨ q.x ≠ p.x → op = 0xFB ∨ (p.e = false ∧ op ∈ mxs) := by
    exact (Or.elim · (absurd rfl ·) (absurd rfl ·))
  n : op ∈ ns → q.n = p.n := by exact fun _ => rfl
  z : op ∈ zs → q.z = p.z := by exact fun _ => rfl

theorem FlagWriters.clauses {op : Nat} {cs vs is ds bs mxs ns zs : List Nat} {p q : Flags}
    (h : FlagWriters op cs vs is ds bs mxs ns zs p q) :
    (q.c ≠ p.c → op ∈ cs) ∧ (q.v ≠ p.v → op ∈ vs) ∧ (q.i ≠ p.i → op ∈ is) ∧ (q.d ≠ p.d → op ∈ ds) ∧
      (q.b ≠ p.b → p.e = true ∧ op ∈ bs) ∧
      (q.m ≠ p.m ∨ q.x ≠ p.x → op = 0xFB ∨ (p.e = false ∧ op ∈ mxs)) ∧
      (op ∈ ns → q.n = p.n) ∧ (op ∈ zs → q.z = p.z) :=
  ⟨h.c, h.v, h.i, h.d, h.b, h.mx, h.n, h.z⟩

/-- An instruction that keeps all flags, at any opcode. -/
theorem FlagWriters.of_eq {op : Nat} {cs vs is ds bs mxs ns zs : List Nat} {p q : Flags} (h : q = p) :
    FlagWriters op cs vs is ds bs mxs ns zs p q := by
  subst h; exact {}

/-- An instruction that calls `NZ` (R12), at an opcode that is listed for neither N nor Z. -/
theorem FlagWriters.of_nz {op : Nat} {cs vs is ds bs mxs ns zs : List Nat} {p q : Flags} {w : Width} {v : Word}
    (h : q = p.nz w v) (hn : op ∉ ns) (hz : op ∉ zs) : FlagWriters op cs vs is ds bs mxs ns zs p q := by
  subst h; exact { n := (absurd · hn), z := (absurd · hz) }

/-- Settles O57: the instructions named with a clause may write that flag; all others keep all of them. -/
theorem writersOfTheStatusFlags : Obligations.WritersOfTheStatusFlags := by
  intro i s t h
  refine FlagWriters.clauses ?_
  cases i with
  | ldaDpXInd | ldaSr | ldaDp | ldaDpIndL | ldaImm | ldaAbs | ldaAbsL | ldaDpIndY | ldaDpInd | ldaSrIndY | ldaDpX |
  ldaDpIndLY | ldaAbsY | ldaAbsX | ldaAbsLX | ldxImm | ldxDp | ldxAbs | ldxDpY | ldxAbsY | ldyImm | ldyDp | ldyAbs |
  ldyDpX | ldyAbsX | andDpXInd | andSr | andDp | andDpIndL | andImm | andAbs | andAbsL | andDpIndY | andDpInd |
  andSrIndY | andDpX | andDpIndLY | andAbsY | andAbsX | andAbsLX | oraDpXInd | oraSr | oraDp | oraDpIndL | oraImm |
  oraAbs | oraAbsL | oraDpIndY | oraDpInd | oraSrIndY | oraDpX | oraDpIndLY | oraAbsY | oraAbsX | oraAbsLX |
  eorDpXInd | eorSr | eorDp | eorDpIndL | eorImm | eorAbs | eorAbsL | eorDpIndY | eorDpInd | eorSrIndY | eorDpX |
  eorDpIndLY | eorAbsY | eorAbsX | eorAbsLX | incA | incDp | incAbs | incDpX | incAbsX | decA | decDp | decAbs |
  decDpX | decAbsX | inx | iny | dex | dey | tax | tay | txa | tya | tsx | txy | tyx | tcd | tdc | tsc | xba | pla |
  plx | ply | plb | pld =>
    cases h; simp only [pla_eq, plx_eq, ply_eq, Instr.opcode]; exact .of_nz rfl (by decide) (by decide)
  | cmpDpXInd | cmpSr | cmpDp | cmpDpIndL | cmpImm | cmpAbs | cmpAbsL | cmpDpIndY | cmpDpInd | cmpSrIndY | cmpDpX |
  cmpDpIndLY | cmpAbsY | cmpAbsX | cmpAbsLX | cpxImm | cpxDp | cpxAbs | cpyImm | cpyDp | cpyAbs | aslDp | aslA |
  aslAbs | aslDpX | aslAbsX | lsrDp | lsrA | lsrAbs | lsrDpX | lsrAbsX | rolDp | rolA | rolAbs | rolDpX | rolAbsX |
  rorDp | rorA | rorAbs | rorDpX | rorAbsX =>
    cases h; dsimp only [Instr.opcode]
    exact { c := fun _ => by decide, n := (absurd · (by decide)), z := (absurd · (by decide)) }
  | adcDpXInd | adcSr | adcDp | adcDpIndL | adcImm | adcAbs | adcAbsL | adcDpIndY | adcDpInd | adcSrIndY | adcDpX |
  adcDpIndLY | adcAbsY | adcAbsX | adcAbsLX | sbcDpXInd | sbcSr | sbcDp | sbcDpIndL | sbcImm | sbcAbs | sbcAbsL |
  sbcDpIndY | sbcDpInd | sbcSrIndY | sbcDpX | sbcDpIndLY | sbcAbsY | sbcAbsX | sbcAbsLX =>
    cases h; dsimp only [Instr.opcode]
    exact { c := fun _ => by decide, v := fun _ => by decide, n := (absurd · (by decide)),
            z := (absurd · (by decide)) }
  | bitDp | bitAbs | bitDpX | bitAbsX =>
    cases h; dsimp only [Instr.opcode]
    exact { v := fun _ => by decide, n := (absurd · (by decide)), z := (absurd · (by decide)) }
  | bitImm | tsbDp | tsbAbs | trbDp | trbAbs =>
    cases h; dsimp only [Instr.opcode]; exact { z := (absurd · (by decide)) }
  | clc | sec =>
    cases h; dsimp only [Instr.opcode]; exact { c := fun _ => by decide }
  | clv =>
    cases h; dsimp only [Instr.opcode]; exact { v := fun _ => by decide }
  | cli | sei =>
    cases h; dsimp only [Instr.opcode]; exact { i := fun _ => by decide }
  | cld | sed =>
    cases h; dsimp only [Instr.opcode]; exact { d := fun _ => by decide }
  | php =>
    cases h; simp only [php_eq, Flags.pushed_eq, Instr.opcode]
    exact { b := fun hb => ⟨(ite_ne_right_iff.mp hb).1, by decide⟩ }
  | brk | cop =>
    cases h; simp only [softwareInterrupt_eq, Flags.entering_eq, Instr.opcode]
    exact { i := fun _ => by decide, d := fun _ => by decide,
            b := fun hb => ⟨(ite_ne_right_iff.mp hb).1, by decide⟩ }
  | plp | rti =>
    cases h; simp only [plp_eq, rti_eq, Instr.opcode]
    exact { c := fun _ => by decide, v := fun _ => by decide, i := fun _ => by decide, d := fun _ => by decide,
            b := fun hb => ⟨Flags.e_of_decode_b hb, by decide⟩,
            mx := fun hm => .inr ⟨Flags.native_of_decode_mx hm, by decide⟩, n := (absurd · (by decide)),
            z := (absurd · (by decide)) }
  | rep =>
    cases h; simp only [rep_eq, Instr.opcode]
    exact { c := fun _ => by decide, v := fun _ => by decide, i := fun _ => by decide, d := fun _ => by decide,
            mx := fun hm => .inr ⟨Flags.native_of_resetBits_mx hm, by decide⟩, n := (absurd · (by decide)),
            z := (absurd · (by decide)) }
  | sep =>
    cases h; simp only [sep_eq, Instr.opcode]
    exact { c := fun _ => by decide, v := fun _ => by decide, i := fun _ => by decide, d := fun _ => by decide,
            mx := fun hm => .inr ⟨Flags.native_of_setBits_mx hm, by decide⟩, n := (absurd · (by decide)),
            z := (absurd · (by decide)) }
  | xce =>
    cases h; dsimp only [Instr.opcode]
    rcases xce_cases 0xFB#8 s with ⟨-, e⟩ | ⟨-, e⟩ <;> rw [e] <;>
      exact { c := fun _ => by decide, mx := fun _ => .inl rfl }
  | pha | phx | phy => cases h; rw [pushReg_eq]; exact .of_eq rfl
  | mvn | mvp => cases h; rw [blockMove_eq]; exact .of_eq rfl
  | _ => cases h; exact .of_eq rfl

end Sys2Proof.Machine
end

section
/-! SUPPORT. The reset state, and what the host does to the machine between steps. -/

namespace Sys2Proof.Machine

/-- Settles O53: the invariants of one concrete state, and the first step from power-on by evaluation. -/
theorem resetStateIsLegal : Obligations.ResetStateIsLegal :=
  ⟨by decide, by decide, by decide, rfl, rfl, rfl, rfl, rfl, rfl, rfl, rfl, rfl⟩

/-- R401: a latch after its pin was set to `now`: set by a rising edge, else as it was. -/
theorem latchAfter_eq (latch before now : Bool) : latchAfter latch before now = (latch || (now && !before)) :=
  congrArg (latch || ·) (Bool.and_comm _ _)

/-- Settles O60: the latches of RES, NMI and ABORT are `latchAfter_eq`'s; every other move is its record update. -/
theorem hostSetsPinsAndLatches : Obligations.HostSetsPinsAndLatches := by
  intro v a w b n p s
  refine ⟨?res, ?nmi, ?abort, rfl, rfl, rfl, rfl, rfl, rfl, rfl, rfl, rfl, rfl, rfl, rfl, rfl⟩
  all_goals simp only [setPin, latchAfter_eq]

end Sys2Proof.Machine
end

section
/-! SUPPORT. Where an instruction writes memory: the addresses of every store, push and block move, said once for all
instructions, and from it that every step keeps memory canonical and what each instruction leaves unchanged. -/

namespace Sys2Proof.Machine

/-! ## Writes within a list of addresses -/

/-- From `m` to `m'` memory keeps its canonical form, and no byte changes but those at the addresses `l`. -/
structure WritesWithin (l : List Addr) (m m' : Memory) : Prop where
  wf : Memory.wf m = true → Memory.wf m' = true
  frame : ∀ n, (∀ x ∈ l, n ≠ x.asInteger) → Memory.read m' n = Memory.read m n

theorem WritesWithin.of_eq {l : List Addr} {m m' : Memory} (h : m' = m) : WritesWithin l m m' := by
  subst h; exact ⟨id, fun _ _ => rfl⟩

/-- One more byte written. -/
theorem WritesWithin.busWrite8 {l : List Addr} {m : Memory} {b : Bus} (h : WritesWithin l m b.mem) (P : Platform)
    (a : Addr) (v : Byte) : WritesWithin (l ++ [a]) m (busWrite8 P a v b).mem where
  wf hm := busWrite8_wf P a v (h.wf hm)
  frame n hn := by
    simp only [List.forall_mem_append, List.forall_mem_singleton] at hn
    rw [busWrite8_other P a v b hn.2, h.frame n hn.1]

/-- R85, R157: a store writes within its operand. -/
theorem store_writesWithin (m : Mode) (w : Width) (v : Word) (s : State) :
    WritesWithin (accessAddrs s.plat w (resolve m s).addr) s.bus.mem (store m w v s).mem :=
  ⟨store_wf m w v, fun _ => store_other m w v s⟩

/-- R157: a read-modify-write writes within its operand. -/
theorem rmwMem_writesWithin (m : Mode) (w : Width) (f : Word → Word) (s : State) :
    WritesWithin (accessAddrs s.plat w (resolve m s).addr) s.bus.mem (rmwMem m w f s).2.mem :=
  ⟨rmwMem_wf m w f, fun _ => rmwMem_other m w f s⟩

/-- R362: the destinations of a block move, A + 1 bytes from Y on. -/
def moveAddrs (up : Bool) (dst : Byte) (s : State) : List Addr :=
  (List.range (blockCount s)).map fun k => ⟨dst, indexAt up s.wX s.y k⟩

/-- R362: a block move writes within its destinations. -/
theorem blockMove_writesWithin (op : Byte) (up : Bool) (dst src : Byte) (s : State) :
    WritesWithin (moveAddrs up dst s) s.bus.mem (blockMove op up dst src s).bus.mem := by
  rw [blockMove_eq]
  dsimp only
  rw [blockLoop_bus]
  exact ⟨copyBytes_wf up dst src s _, fun n hn =>
    copyBytes_other up dst src s _ s.bus fun k hk => hn _ (List.mem_map_of_mem hk)⟩

/-! ## Pushes -/

/-- `u` is what `k` pushed bytes make of the stack and of memory in `s` (R90). -/
structure Pushed (s : State) (k : Nat) (u : State) : Prop where
  sp : u.sp = s.spAfter k
  e : u.p.e = s.p.e
  plat : u.plat = s.plat
  mem : WritesWithin (s.pushAddrs k) s.bus.mem u.bus.mem

theorem Pushed.zero (s : State) : Pushed s 0 s := ⟨rfl, rfl, rfl, .of_eq rfl⟩

/-- R90: one more byte pushed. -/
theorem Pushed.push8 {s u : State} {k : Nat} (h : Pushed s k u) (v : Byte) : Pushed s (k + 1) (u.push8 v) where
  sp := State.decS_congr h.e h.plat h.sp
  e := h.e
  plat := h.plat
  mem := by
    have ha : s.pushAddrs (k + 1) = s.pushAddrs k ++ [⟨0x00#8, u.sp⟩] := by
      simp [State.pushAddrs, List.range_succ, h.sp]
    rw [ha]
    exact h.mem.busWrite8 u.plat _ v

/-- R92: two more bytes pushed. -/
theorem Pushed.push16 {s u : State} {k : Nat} (h : Pushed s k u) (v : Word) : Pushed s (k + 2) (u.push16 v) :=
  (h.push8 (hiByte v)).push8 (loByte v)

/-- R286: a register pushed at its width. -/
theorem Pushed.pushW (s : State) (w : Width) (v : Word) : Pushed s w.bytes (s.pushW w v) := by
  cases w with
  | w8 => exact (Pushed.zero s).push8 (loByte v)
  | w16 => exact (Pushed.zero s).push16 v

/-- R411: the bytes that an interrupt entry pushes: the bank in native mode, the return offset and the flags. -/
theorem State.enter_writesWithin (s : State) (k : Cause) (ret : Word) :
    WritesWithin (s.pushAddrs (if s.p.e then 3 else 4)) s.bus.mem (s.enter k ret).bus.mem := by
  rw [State.enter_mem]
  split
  · exact (((Pushed.zero s).push16 ret).push8 _).mem
  · exact ((((Pushed.zero s).push8 s.pbr).push16 ret).push8 _).mem

/-! ## Instructions -/

/-- The opcodes of STA, STZ and the read-modify-writes on memory, at the accumulator width (R157, R173, R176). -/
def storesAtA : List Nat :=
  [0x04, 0x06, 0x0C, 0x0E, 0x14, 0x16, 0x1C, 0x1E, 0x26, 0x2E, 0x36, 0x3E, 0x46, 0x4E, 0x56, 0x5E, 0x64, 0x66, 0x6E,
   0x74, 0x76, 0x7E, 0x81, 0x83, 0x85, 0x87, 0x8D, 0x8F, 0x91, 0x92, 0x93, 0x95, 0x97, 0x99, 0x9C, 0x9D, 0x9E, 0x9F,
   0xC6, 0xCE, 0xD6, 0xDE, 0xE6, 0xEE, 0xF6, 0xFE]

/-- The opcodes of STX and STY, at the index width (R174, R175). -/
def storesAtX : List Nat := [0x84, 0x86, 0x8C, 0x8E, 0x94, 0x96]

/-- How many bytes the instruction at an opcode pushes (R270 to R276, R283 to R285, R256 to R258, R411). -/
def bytesPushed (op : Nat) (s : State) : Nat :=
  if op ∈ [0x48] then s.wA.bytes
  else if op ∈ [0x5A, 0xDA] then s.wX.bytes
  else if op ∈ [0x08, 0x4B, 0x8B] then 1
  else if op ∈ [0x0B, 0x20, 0x62, 0xD4, 0xF4, 0xFC] then 2
  else if op ∈ [0x22] then 3
  else if op ∈ [0x00, 0x02] then (if s.p.e then 3 else 4)
  else 0

/-- The addresses of an instruction other than a block move that it may write, by its opcode and its mode. -/
def operandOrStack (op : Nat) (m : Mode) (s : State) : List Addr :=
  if op ∈ storesAtA then accessAddrs s.plat s.wA (resolve m s).addr
  else if op ∈ storesAtX then accessAddrs s.plat s.wX (resolve m s).addr
  else s.pushAddrs (bytesPushed op s)

/-- The addresses that an instruction may write. -/
def writtenAddrs (i : Instr) (s : State) : List Addr :=
  match i with
  | .mvn dst _ => moveAddrs true dst s
  | .mvp dst _ => moveAddrs false dst s
  | i => operandOrStack i.opcode.toNat i.mode s

theorem xce_mem (op : Byte) (s : State) : (xce op s).bus.mem = s.bus.mem := by
  rcases xce_cases op s with ⟨-, e⟩ | ⟨-, e⟩ <;> rw [e]

theorem State.returnFromInterrupt_mem (s : State) : s.returnFromInterrupt.bus.mem = s.bus.mem := by
  rw [State.returnFromInterrupt_eq]
  split <;> simp

/-- All that an instruction does to memory. Those not named load an operand and store nothing. -/
theorem exec_writesWithin {i : Instr} {s t : State} (h : exec i s = .next t) :
    WritesWithin (writtenAddrs i s) s.bus.mem t.bus.mem := by
  cases i with
  | staDpXInd | staSr | staDp | staDpIndL | staAbs | staAbsL | staDpIndY | staDpInd | staSrIndY | staDpX | staDpIndLY |
  staAbsY | staAbsX | staAbsLX | stxDp | stxAbs | stxDpY | styDp | styAbs | styDpX | stzDp | stzDpX | stzAbs |
  stzAbsX =>
    cases h; exact store_writesWithin _ _ _ s
  | aslDp | aslAbs | aslDpX | aslAbsX | lsrDp | lsrAbs | lsrDpX | lsrAbsX | rolDp | rolAbs | rolDpX | rolAbsX | rorDp |
  rorAbs | rorDpX | rorAbsX | incDp | incAbs | incDpX | incAbsX | decDp | decAbs | decDpX | decAbsX =>
    cases h; exact rmwMem_writesWithin _ _ _ s
  | tsbDp | tsbAbs => cases h; exact rmwMem_writesWithin _ _ (fun v => v ||| s.getA s.wA) s
  | trbDp | trbAbs => cases h; exact rmwMem_writesWithin _ _ (fun v => v &&& complement s.wA (s.getA s.wA)) s
  | mvn | mvp => cases h; exact blockMove_writesWithin _ _ _ _ s
  | pha | phx | phy => cases h; rw [pushReg_eq]; exact (Pushed.pushW s _ _).mem
  | php => cases h; rw [php_eq]; exact ((Pushed.zero s).push8 _).mem
  | phb | phk => cases h; exact ((Pushed.zero s).push8 _).mem
  | phd | pea | per | jsrAbs =>
    cases h; simp only [phd_eq, pea_eq, per_eq, jsr_eq]; exact ((Pushed.zero s).push16 _).mem
  | pei d =>
    cases h; rw [pei_eq]
    have hw : Pushed s 0 (afterPeiWord d s) := ⟨rfl, rfl, rfl, .of_eq (memRead16_mem _ _ _)⟩
    exact (hw.push16 _).mem
  | jsrAbsXInd a =>
    cases h; rw [jsrPointer_eq]
    have hw : Pushed s 0 (afterPointer (.absXInd a) s) := ⟨rfl, rfl, rfl, .of_eq (memRead16_mem _ _ _)⟩
    exact (hw.push16 _).mem
  | jslAbsL => cases h; rw [jsl_eq]; exact (((Pushed.zero s).push8 s.pbr).push16 (s.pc + 3#16)).mem
  | brk | cop => cases h; rw [softwareInterrupt_eq]; exact State.enter_writesWithin s _ _
  | pla => cases h; rw [pla_eq]; exact .of_eq (State.pullW_mem s _)
  | plx => cases h; rw [plx_eq]; exact .of_eq (State.pullW_mem s _)
  | ply => cases h; rw [ply_eq]; exact .of_eq (State.pullW_mem s _)
  | plp | plb => cases h; exact .of_eq s.pull8_mem
  | pld | rts => cases h; exact .of_eq s.pull16_mem
  | rtl => cases h; exact .of_eq s.pull24_mem
  | rti => cases h; exact .of_eq s.returnFromInterrupt_mem
  | jmpAbsInd | jmpAbsXInd => cases h; exact .of_eq (memRead16_mem _ _ _)
  | jmlAbsIndL => cases h; exact .of_eq (memRead24_mem _ _ _)
  | xce => cases h; exact .of_eq (xce_mem _ s)
  | clc | sec | cli | sei | cld | sed | clv | rep | sep | aslA | lsrA | rolA | rorA | incA | decA | inx | iny | dex |
  dey | tax | tay | txa | tya | tsx | txs | txy | tyx | tcd | tdc | tcs | tsc | xba | bcc | bcs | beq | bne | bmi |
  bpl | bvc | bvs | bra | brl | jmpAbs | jmlAbsL | wai | stp | wdm | nop =>
    cases h; exact .of_eq rfl
  | adcDpXInd | adcSr | adcDp | adcDpIndL | adcImm | adcAbs | adcAbsL | adcDpIndY | adcDpInd | adcSrIndY | adcDpX |
  adcDpIndLY | adcAbsY | adcAbsX | adcAbsLX | sbcDpXInd | sbcSr | sbcDp | sbcDpIndL | sbcImm | sbcAbs | sbcAbsL |
  sbcDpIndY | sbcDpInd | sbcSrIndY | sbcDpX | sbcDpIndLY | sbcAbsY | sbcAbsX | sbcAbsLX =>
    cases h; simp only [adc_eq, sbc_eq]; exact .of_eq (load_mem _ s.wA s)
  | _ => cases h; exact .of_eq (load_mem _ _ s)

/-! ## Canonical memory -/

/-- R86, R99: the fetch leaves memory as it was. -/
@[simp] theorem State.fetchOperands_mem (op : Byte) (s : State) : (s.fetchOperands op).2.mem = s.bus.mem := by
  unfold State.fetchOperands
  dsimp only
  generalize opcodeBytesRead s.m8 s.x8 op = n
  match n with
  | 0 => rfl
  | 1 => exact busRead8_mem _ _ _
  | 2 | _ + 3 => simp only [busRead8_mem]

theorem State.fetch_mem (s : State) : s.fetch.bus.mem = s.bus.mem := by
  simp [State.fetch, State.fetchOpcode]

/-- R406: an instruction fetched and executed keeps memory canonical. -/
theorem runInstr_memInv {s t : State} (h : s.MemInv) (ht : runInstr s = .next t) : t.MemInv := by
  cases hu : s.plat.unimplemented.contains s.fetchOpcode.1 with
  | true => rw [runInstr_unimplemented hu] at ht; cases ht
  | false =>
    rw [runInstr_implemented hu] at ht
    exact (exec_writesWithin ht).wf (by rw [State.fetch_mem]; exact h)

/-- R406, R410: the interrupt check keeps memory canonical. -/
theorem State.interruptCheck_memInv {s : State} (h : s.MemInv) : s.interruptCheck.Leaves State.MemInv := by
  rcases s.interruptCheck_cases with e | e | e | e <;> rw [e]
  · exact State.enter_memInv (s := { s with abortPending := false }) h .abort s.pc
  · exact State.enter_memInv (s := { s with nmiPending := false }) h .nmi s.pc
  · exact State.enter_memInv h .irq s.pc
  · exact h

/-- R450: the reset sequence reads its vector and leaves memory as it was. -/
theorem State.resetSequence_mem (s : State) : s.resetSequence.bus.mem = s.bus.mem := memRead16_mem _ _ _

/-- R402 to R406: everything before the fetch keeps memory canonical. -/
theorem State.boundary_memInv {s : State} (h : s.MemInv) : s.boundary.Leaves State.MemInv := by
  rcases s.boundary_cases with e | e | e | e <;> rw [e]
  · exact h
  · exact (congrArg Memory.wf s.resetSequence_mem).trans h
  · exact h
  · exact State.interruptCheck_memInv (s := { s with run := .running }) h

/-- R406: what the boundary and an instruction each keep, a step keeps. -/
theorem step_keeps {Q : State → Prop} {s t : State} (hb : s.boundary.Leaves Q)
    (hr : ∀ u, Q u → runInstr u = .next t → Q t) (ht : step s = .next t) : Q t := by
  cases e : s.boundary with
  | done u =>
    rw [e] at hb
    rw [step_of_boundary_done e] at ht
    cases ht
    exact hb
  | execute u =>
    rw [e] at hb
    rw [step_of_boundary_execute e] at ht
    exact hr u hb ht

/-- Settles O55: the boundary writes memory by an entry's pushes alone, an instruction within `writtenAddrs`. -/
theorem stepKeepsMemoryCanonical : Obligations.StepKeepsMemoryCanonical :=
  fun _ _ h => step_keeps (State.boundary_memInv h) fun _ => runInstr_memInv

/-! ## Frames -/

/-- The opcodes of all instructions that may write memory. -/
def memoryWriters : List Nat :=
  [0x00, 0x02, 0x04, 0x06, 0x08, 0x0B, 0x0C, 0x0E, 0x14, 0x16, 0x1C, 0x1E, 0x20, 0x22, 0x26, 0x2E, 0x36, 0x3E, 0x44,
   0x46, 0x48, 0x4B, 0x4E, 0x54, 0x56, 0x5A, 0x5E, 0x62, 0x64, 0x66, 0x6E, 0x74, 0x76, 0x7E, 0x81, 0x83, 0x84, 0x85,
   0x86, 0x87, 0x8B, 0x8C, 0x8D, 0x8E, 0x8F, 0x91, 0x92, 0x93, 0x94, 0x95, 0x96, 0x97, 0x99, 0x9C, 0x9D, 0x9E, 0x9F,
   0xC6, 0xCE, 0xD4, 0xD6, 0xDA, 0xDE, 0xE6, 0xEE, 0xF4, 0xF6, 0xFC, 0xFE]

/-- An instruction that is no block move writes its operand or the stack. -/
theorem writtenAddrs_of_not_move {i : Instr} (s : State) (h : i.opcode.toNat ∉ [0x44, 0x54]) :
    writtenAddrs i s = operandOrStack i.opcode.toNat i.mode s := by
  unfold writtenAddrs
  split
  · exact absurd (.tail _ (.head _)) h
  · exact absurd (.head _) h
  · rfl

/-- An instruction at no other opcode writes nothing. -/
theorem writtenAddrs_eq_nil {i : Instr} (s : State) (h : i.opcode.toNat ∉ memoryWriters) : writtenAddrs i s = [] := by
  have no {l : List Nat} (hl : l ⊆ memoryWriters) : i.opcode.toNat ∉ l := fun hm => h (hl hm)
  rw [writtenAddrs_of_not_move s (no (by decide)), operandOrStack, if_neg (no (by decide)), if_neg (no (by decide)),
    bytesPushed]
  repeat rw [if_neg (no (by decide))]
  rfl

/-- An instruction at one of the opcodes `l`, all of which write within `as`, changes no byte outside it. -/
theorem exec_frame {i : Instr} {s t : State} (h : exec i s = .next t) {l : List Nat} (hi : i.opcode.toNat ∈ l)
    {as : List Addr} (hl : ∀ op ∈ l, op ∉ [0x44, 0x54] ∧ operandOrStack op i.mode s = as) (n : Nat)
    (hn : ∀ x ∈ as, n ≠ x.asInteger) : Memory.read t.bus.mem n = Memory.read s.bus.mem n := by
  obtain ⟨hm, e⟩ := hl _ hi
  refine (exec_writesWithin h).frame n ?_
  rw [writtenAddrs_of_not_move s hm, e]
  exact hn

theorem operandOrStack_storesAtA (m : Mode) (s : State) : ∀ op ∈ storesAtA, op ∉ [0x44, 0x54] ∧
    operandOrStack op m s = accessAddrs s.plat s.wA (resolve m s).addr :=
  fun op h => ⟨(by decide : ∀ op ∈ storesAtA, op ∉ [0x44, 0x54]) op h, if_pos h⟩

theorem operandOrStack_storesAtX (m : Mode) (s : State) : ∀ op ∈ storesAtX, op ∉ [0x44, 0x54] ∧
    operandOrStack op m s = accessAddrs s.plat s.wX (resolve m s).addr :=
  fun op h => ⟨(by decide : ∀ op ∈ storesAtX, op ∉ [0x44, 0x54]) op h,
    (if_neg ((by decide : ∀ op ∈ storesAtX, op ∉ storesAtA) op h)).trans (if_pos h)⟩

/-- Settles O58: the opcodes of each clause are those of `writtenAddrs`. -/
theorem storesChangeOnlyTheirOperand : Obligations.StoresChangeOnlyTheirOperand := by
  refine ⟨fun i s t h hi n => (exec_writesWithin h).frame n ?_, fun i s t h => ⟨fun hi => ?_, fun hi => ?_⟩⟩
  · rw [writtenAddrs_eq_nil s hi]; exact List.forall_mem_nil _
  · exact exec_frame h hi (operandOrStack_storesAtA i.mode s)
  · exact exec_frame h hi (operandOrStack_storesAtX i.mode s)

/-- Settles O59: pushes, calls and software interrupts by the number of bytes they push, moves by their destinations. -/
theorem pushesAndMovesChangeOnlyTheirTarget : Obligations.PushesAndMovesChangeOnlyTheirTarget := by
  refine ⟨fun i s t h => ⟨?pha, ?index, ?one, ?two, ?three, ?entry⟩, fun dst src s t => ⟨?mvn, ?mvp⟩⟩
  case pha | three =>
    refine fun hi => exec_frame h (List.mem_singleton.mpr hi) fun op hop => ?_
    fin_cases hop; exact ⟨by decide, rfl⟩
  case index | one | two | entry =>
    refine fun hi => exec_frame h hi fun op hop => ?_
    fin_cases hop <;> exact ⟨by decide, rfl⟩
  case mvn | mvp =>
    refine fun h n hn => (exec_writesWithin h).frame n fun x hx => ?_
    obtain ⟨k, hk, rfl⟩ := List.mem_map.mp hx
    exact hn k (Nat.lt_succ_iff.mp (List.mem_range.mp hk))

end Sys2Proof.Machine
end

section
/-! SUPPORT. The bus multiplexer's choice of a target and the two additions of an address. -/

namespace Sys2Proof.Machine

/-! ## The bus multiplexer -/

/-- R79, R82: an address is backed by memory exactly when a region of some device holds it. -/
theorem busTarget_eq_region_iff (P : Platform) (a : Addr) :
    busTarget P a = .region ↔ ∃ d ∈ P.devices, ∃ r ∈ d.regions, r.first ≤ a.asInteger ∧ a.asInteger ≤ r.last := by
  have hany : (busRegions P).any (fun r => inRegion r a) = true ↔
      ∃ d ∈ P.devices, ∃ r ∈ d.regions, r.first ≤ a.asInteger ∧ a.asInteger ≤ r.last := by
    simp [busRegions, inRegion]
  rw [← hany, busTarget]
  split
  · next h => simp only [h]
  · next h => split <;> simp [h]

/-- R82: where no region holds the address, the device that claims it answers. -/
theorem busTarget_eq_device {P : Platform} {a : Addr} {k l : Nat} (h : busTarget P a ≠ .region)
    (hc : claimingDevice P.devices 0 a.asInteger = some (k, l)) : busTarget P a = .device k l := by
  unfold busTarget at h ⊢
  split at h
  · exact absurd rfl h
  · next hr => rw [if_neg hr, hc]

/-- R82, R83: where neither a region nor a device holds the address, nothing does. -/
theorem busTarget_eq_openBus {P : Platform} {a : Addr} (h : busTarget P a ≠ .region)
    (hc : claimingDevice P.devices 0 a.asInteger = none) : busTarget P a = .openBus := by
  unfold busTarget at h ⊢
  split at h
  · exact absurd rfl h
  · next hr => rw [if_neg hr, hc]

/-- R82: devices that do not claim the address are passed over. -/
theorem claimingDevice_append {before : List Device} {n : Nat}
    (h : ∀ e ∈ before, ∀ k, ¬ decodeWindows e.windows n = some k) (after : List Device) (k : Nat) :
    claimingDevice (before ++ after) k n = claimingDevice after (k + before.length) n := by
  induction before generalizing k with
  | nil => rfl
  | cons d ds ih =>
    obtain ⟨hd, hds⟩ := List.forall_mem_cons.mp h
    have hn : decodeWindows d.windows n = none := Option.eq_none_iff_forall_ne_some.mpr hd
    rw [List.cons_append, claimingDevice, hn]
    dsimp only
    rw [ih hds, List.length_cons]
    congr 1; omega

/-- R82: the first device that claims the address answers, at its place in the registration order. -/
theorem claimingDevice_first {before : List Device} {n l : Nat} {d : Device}
    (h : ∀ e ∈ before, ∀ k, ¬ decodeWindows e.windows n = some k) (hd : decodeWindows d.windows n = some l)
    (after : List Device) : claimingDevice (before ++ d :: after) 0 n = some (before.length, l) := by
  rw [claimingDevice_append h, claimingDevice, hd, Nat.zero_add]

/-- R82: no device answers an address that none claims. -/
theorem claimingDevice_none {ds : List Device} {n : Nat} (h : ∀ e ∈ ds, ∀ k, ¬ decodeWindows e.windows n = some k) :
    claimingDevice ds 0 n = none := by
  have := claimingDevice_append h [] 0
  rwa [List.append_nil] at this

/-- Settles O47: each clause fixes the target, and an access does what its target says. -/
theorem busDispatch : Obligations.BusDispatch := by
  intro P a v b
  simp only [← busTarget_eq_region_iff]
  refine ⟨fun h => ?_, fun h before after d l hP hb hd => ?_, fun h hn => ?_⟩
  · simp only [busWrite8, busRead8, h, and_self]
  · have ht : busTarget P a = .device before.length l :=
      busTarget_eq_device h (hP ▸ claimingDevice_first hb hd after)
    simp only [busWrite8, busRead8, ht, and_self]
  · have ht := busTarget_eq_openBus h (claimingDevice_none hn)
    simp only [busWrite8, busRead8, ht, and_self]

end Sys2Proof.Machine

/-! ## Addresses -/

namespace Sys2Proof

/-- R70: an address is rebuilt from its integer. -/
theorem Addr.fromInteger_asInteger (a : Addr) : Addr.fromInteger a.asInteger = a :=
  Addr.eq_of_asInteger (Addr.asInteger_fromInteger a.asInteger_lt)

/-- R71: the offset of a wrapped sum. -/
theorem Addr.toNat_offset_withOffsetWrap (a : Addr) (d : Int) :
    ((a.withOffsetWrap d).offset.toNat : Int) = (a.offset.toNat + d) % 65536 := by
  have h : 0 ≤ ((a.offset.toNat : Int) + d) % 65536 := Int.emod_nonneg _ (by decide)
  simp only [Addr.withOffsetWrap, BitVec.toNat_ofInt]
  exact Int.toNat_of_nonneg h

/-- R71: the integer of a wrapped sum. -/
theorem Addr.asInteger_withOffsetWrap (a : Addr) (d : Int) :
    ((a.withOffsetWrap d).asInteger : Int) = a.bank.toNat * 65536 + (a.offset.toNat + d) % 65536 := by
  have hb : (a.withOffsetWrap d).bank = a.bank := rfl
  have ho := a.toNat_offset_withOffsetWrap d
  simp only [Addr.asInteger, hb]
  omega

/-- R72: the integer of an unwrapped sum. -/
theorem Addr.asInteger_withOffsetNoWrap (a : Addr) (d : Int) :
    ((a.withOffsetNoWrap d).asInteger : Int) = (a.asInteger + d) % 16777216 := by
  rw [Addr.withOffsetNoWrap, Addr.asInteger_fromInteger] <;> omega

theorem Addr.eq_iff_asInteger (a b : Addr) : a = b ↔ a.asInteger = b.asInteger :=
  ⟨congrArg _, Addr.eq_of_asInteger⟩

/-- R71, R72, D9: over at most 255 banks the two additions agree exactly inside the bank. -/
theorem Addr.withOffsetNoWrap_eq_withOffsetWrap_iff (a : Addr) {d : Int} (h1 : -16711680 ≤ d) (h2 : d ≤ 16711680) :
    a.withOffsetNoWrap d = a.withOffsetWrap d ↔ 0 ≤ a.offset.toNat + d ∧ a.offset.toNat + d < 65536 := by
  have hw := a.asInteger_withOffsetWrap d
  have hn := a.asInteger_withOffsetNoWrap d
  have ha : a.asInteger = a.bank.toNat * 65536 + a.offset.toNat := rfl
  have hb := a.bank.isLt
  have ho := a.offset.isLt
  rw [Addr.eq_iff_asInteger]
  omega

/-- Settles O48: each addition by its integer, and R76's test by its quotients. -/
theorem addressArithmetic : Obligations.AddressArithmetic :=
  ⟨⟨Addr.fromInteger_asInteger, fun _ => Addr.asInteger_fromInteger, Addr.eq_iff_asInteger,
      fun a d => ⟨rfl, a.toNat_offset_withOffsetWrap d, rfl⟩, fun _ _ => bne_iff_ne⟩,
    fun a d => ⟨a.asInteger_withOffsetNoWrap d, a.withOffsetNoWrap_eq_withOffsetWrap_iff⟩⟩

end Sys2Proof
end

section
/-! SUPPORT. One byte and several on the stack, and the memory operands of loads and stores. -/

namespace Sys2Proof.Machine

/-! ## The stack -/

/-- R90: S counted down, in numbers (decision D10). -/
theorem State.decS_eq_ofNat (s : State) :
    s.decS = BitVec.ofNat 16
      (if s.page1 then 256 + (s.sp.toNat % 256 + 255) % 256 else (s.sp.toNat + 65535) % 65536) := by
  apply BitVec.eq_of_toNat_eq
  cases h : s.page1 with
  | true =>
    simp only [State.decS_page1 h, toNat_joinBytes, toNat_loByte, BitVec.toNat_sub, BitVec.toNat_ofNat, if_true]
    omega
  | false =>
    simp only [State.decS_free h, BitVec.toNat_sub, BitVec.toNat_ofNat, Bool.false_eq_true, if_false]
    omega

/-- R91: S counted up, in numbers (decision D10). -/
theorem State.incS_eq_ofNat (s : State) :
    s.incS = BitVec.ofNat 16
      (if s.page1 then 256 + (s.sp.toNat % 256 + 1) % 256 else (s.sp.toNat + 1) % 65536) := by
  apply BitVec.eq_of_toNat_eq
  cases h : s.page1 with
  | true =>
    simp only [State.incS_page1 h, toNat_joinBytes, toNat_loByte, BitVec.toNat_add, BitVec.toNat_ofNat, if_true]
    omega
  | false =>
    simp only [State.incS_free h, BitVec.toNat_add, BitVec.toNat_ofNat, Bool.false_eq_true, if_false]
    omega

/-- Settles O29: the two counts of S in numbers; the rest is what one push and one pull are. -/
theorem pushAndPullOneByte : Obligations.PushAndPullOneByte := by
  intro v s one down up r
  have hd : s.decS = down := s.decS_eq_ofNat
  have hu : s.incS = up := s.incS_eq_ofNat
  refine ⟨?_, ?_⟩
  · rw [State.push8_eq, hd]
  · rw [State.pull8_eq, hu]

/-- R92: a pulled word is what was pushed, if both bytes are memory. -/
theorem State.pull16_push16 {s : State} (w : Word) (hm : s.MemInv) (hp : s.PageInv)
    (hr : ∀ a ∈ s.pushAddrs 2, InRegion s.plat a) : (s.push16 w).pull16 = (w, { s.push16 w with sp := s.sp }) := by
  have h0 : InRegion s.plat ⟨0x00#8, s.sp⟩ := hr _ (State.mem_pushAddrs (j := 0) (by decide))
  have h1 : InRegion s.plat ⟨0x00#8, s.decS⟩ := s.spAfter_one ▸ hr _ (State.mem_pushAddrs (j := 1) (by decide))
  have hlo : (s.push16 w).pull8 = (loByte w, { s.push16 w with sp := s.decS }) :=
    State.pull8_push8 (s := s.push8 (hiByte w)) _ (State.push8_memInv _ hm) (State.pageInv_decS s) h1
  have hne : (⟨0x00#8, s.sp⟩ : Addr).asInteger ≠ (⟨0x00#8, s.decS⟩ : Addr).asInteger := by
    rw [← s.spAfter_one]; exact State.stackAddr_ne hp Nat.zero_lt_one (by decide)
  have hhi : ({ s.push16 w with sp := s.decS } : State).pull8 = (hiByte w, { s.push16 w with sp := s.sp }) :=
    State.pull8_at (State.incS_decS hp) h0
      ((State.push8_other (s.push8 (hiByte w)) (loByte w) hne).trans (State.push8_same _ hm h0))
  rw [State.pull16, hlo]
  dsimp only
  rw [hhi, joinBytes_hi_lo]

/-- R93: a pulled address is what was pushed, if its three bytes are memory. -/
theorem State.pull24_push24 {s : State} (k : Byte) (w : Word) (hm : s.MemInv) (hp : s.PageInv)
    (hr : ∀ a ∈ s.pushAddrs 3, InRegion s.plat a) :
    (s.push24 k w).pull24 = (⟨k, w⟩, { s.push24 k w with sp := s.sp }) := by
  have h0 : InRegion s.plat ⟨0x00#8, s.sp⟩ := hr _ (State.mem_pushAddrs (j := 0) (by decide))
  have hw : (s.push24 k w).pull16 = (w, { s.push24 k w with sp := s.decS }) := by
    refine State.pull16_push16 (s := s.push8 k) w (State.push8_memInv _ hm) (State.pageInv_decS s) fun a ha => ?_
    obtain ⟨j, hj, rfl⟩ := List.mem_map.mp ha
    rw [State.spAfter_push8]
    exact hr _ (State.mem_pushAddrs (Nat.succ_lt_succ (List.mem_range.mp hj)))
  have hk : Memory.read (s.push24 k w).bus.mem (⟨0x00#8, s.sp⟩ : Addr).asInteger = k := by
    refine (State.push16_other (s.push8 k) w fun j hj => ?_).trans (State.push8_same _ hm h0)
    rw [State.spAfter_push8]
    exact State.stackAddr_ne hp (Nat.succ_pos j) (by omega)
  have hb : ({ s.push24 k w with sp := s.decS } : State).pull8 = (k, { s.push24 k w with sp := s.sp }) :=
    State.pull8_at (State.incS_decS hp) h0 hk
  rw [State.pull24, hw]
  dsimp only
  rw [hb]

/-- Settles O30: R47 keeps S in page 1, where counting up undoes counting down. -/
theorem pullUndoesPush : Obligations.PullUndoesPush := by
  intro v w s hm he hr
  have hp := State.pageInv_of_emulationInv he
  refine ⟨State.pull8_push8 v hm hp (hr _ (State.mem_pushAddrs (j := 0) (by decide))),
    State.pull16_push16 w hm hp fun a ha => hr a ?_, State.pull24_push24 v w hm hp hr⟩
  obtain ⟨j, hj, rfl⟩ := List.mem_map.mp ha
  exact State.mem_pushAddrs (Nat.lt_succ_of_lt (List.mem_range.mp hj))

/-! ## Memory operands -/

/-- R157: a mode that is no immediate loads its memory operand. -/
theorem load_eq_loadMem {m : Mode} (hM : ∀ u, m ≠ .immM u) (hX : ∀ u, m ≠ .immX u) (h8 : ∀ u, m ≠ .imm8 u) (w : Width)
    (s : State) : load m w s = loadMem m w s := by
  cases m with
  | immM u => exact absurd rfl (hM u)
  | immX u => exact absurd rfl (hX u)
  | imm8 u => exact absurd rfl (h8 u)
  | _ => rfl

/-- Settles O45: pointer reads leave memory as it was, so the operand is read from the bytes of the state before. -/
theorem loadsReadLittleEndian : Obligations.LoadsReadLittleEndian := by
  refine fun m v w s => ⟨rfl, rfl, fun hM hX h8 hn => ?_⟩
  rw [load_eq_loadMem hM hX h8]
  cases w with
  | w8 =>
    have hr := busRead8_noDevice s (resolve_mem m s) (hn _ (.head _))
    simp only [loadMem, memRead, hr, toNat_zext16, Nat.add_zero, and_self]
  | w16 =>
    have hr := memRead16_noDevice s (resolve_mem m s) (hn _ (.head _)) (hn _ (.tail _ (.head _)))
    simp only [loadMem, memRead, hr, State.wordAt, toNat_joinBytes, Nat.add_comm, and_self]

/-- R24: writing back what was read of a register leaves it as it was. -/
theorem writeKeep_trunc_self (w : Width) (v : Word) : writeKeep w (trunc w v) v = v := by
  cases w with
  | w8 => simp [writeKeep]
  | w16 => rfl

/-- Settles O46: the load reads back what the store wrote, and at 8 bits keeps the accumulator's high byte. -/
theorem loadAfterStoreGivesTheRegister : Obligations.LoadAfterStoreGivesTheRegister := by
  intro a s hm hr
  refine ⟨sta 0x8D#8 (.abs a) s, lda 0xAD#8 (.abs a) (sta 0x8D#8 (.abs a) s), rfl, rfl, ?_⟩
  have hv : (load (.abs a) s.wA (sta 0x8D#8 (.abs a) s)).val = trunc s.wA s.a :=
    (memRead_memWrite s.wA (s.getA s.wA) hm hr).trans (trunc_trunc _ _)
  show writeKeep s.wA (load (.abs a) s.wA (sta 0x8D#8 (.abs a) s)).val s.a = s.a
  rw [hv, writeKeep_trunc_self]

end Sys2Proof.Machine
end

section
/-! SUPPORT. What a step that is ready to fetch executes. -/

namespace Sys2Proof.Machine

/-- R406: a ready step whose opcode has a handler executes the fetched instruction. -/
theorem step_ready {s : State} (h : s.Ready) (hu : s.plat.unimplemented.contains s.fetchOpcode.1 = false) :
    step s = exec s.fetch.instr { s with bus := s.fetch.bus } := by
  rw [step_of_boundary_execute (State.boundary_ready h), runInstr_implemented hu]

/-- R114: what decoding gives is built from the first byte and the next ones, by that opcode's length. -/
theorem decode_cons_eq_ok {m8 x8 : Bool} {op : Byte} {bs rest : List Byte} {i : Instr}
    (h : decode m8 x8 (op :: bs) = .ok (i, rest)) : i = instrOfBytes op (bs.take (opcodeLen m8 x8 op - 1)) := by
  unfold decode at h
  dsimp only at h
  split at h
  · cases h
  · cases h; rfl

/-- Settles O6: the bytes fetched are the code bytes, and one that the fetch skips does not matter to `exec`. -/
theorem stepRunsTheDecodedInstruction : Obligations.StepRunsTheDecodedInstruction := by
  refine ⟨fun _ h hu => step_ready h hu, fun s i rest h hn hc hu hd => ?_⟩
  have hi := decode_cons_eq_ok hd
  have hf := State.fetch_noDevice hn hc
  have hop : s.fetchOpcode.1 = i.opcode := by
    rw [hi]; exact (congrArg Fetched.op hf).trans (opcode_instrOf _ _ _ _).symm
  rw [step_ready h (hop ▸ hu), hf, hi]
  exact exec_instrOfBytes_skipped s.m8 s.x8 _ _ s

end Sys2Proof.Machine
end

section
/-! SUPPORT. What decoding can answer, and that it undoes the encoding and is undone by it (R110 to R114). -/

namespace Sys2Proof

/-- R112: the length of an opcode is 1 to 4. -/
theorem opcodeLen_bounds (m8 x8 : Bool) (op : Byte) : 1 ≤ opcodeLen m8 x8 op ∧ opcodeLen m8 x8 op ≤ 4 :=
  Mode.len_bounds m8 x8 _

/-- R114: decoding answers an instruction exactly where the operand bytes that the opcode asks for are there. -/
theorem decode_eq_ok_iff {m8 x8 : Bool} {bytes rest : List Byte} {i : Instr} :
    decode m8 x8 bytes = .ok (i, rest) ↔
      ∃ op bs, bytes = op :: (bs ++ rest) ∧ bs.length + 1 = opcodeLen m8 x8 op ∧ i = instrOfBytes op bs := by
  constructor
  · intro h
    match bytes with
    | [] => cases h
    | op :: tail =>
      have hlen := (opcodeLen_bounds m8 x8 op).1
      unfold decode at h
      dsimp only at h
      split at h
      · cases h
      · next hn =>
        cases h
        exact ⟨op, _, by rw [List.take_append_drop], by rw [List.length_take]; omega, rfl⟩
  · rintro ⟨op, bs, rfl, hlen, rfl⟩
    have hn : opcodeLen m8 x8 op - 1 = bs.length := by omega
    unfold decode
    dsimp only
    rw [hn, if_neg (by simp), List.take_left, List.drop_left]

/-- Settles O2: the operand bytes have the length of the opcode, and a well-formed instruction is rebuilt from them. -/
theorem encodeThenDecodeGivesBack : Obligations.EncodeThenDecodeGivesBack := by
  intro m8 x8 i rest hw
  refine decode_eq_ok_iff.mpr ⟨i.opcode, i.mode.operandBytes m8 x8, rfl, ?_, (instrOfBytes_operandBytes hw).symm⟩
  rw [Mode.operandBytes_length, opcodeLen_opcode]

/-- A list of at most three bytes, filled up with zeros and cut to its length, is itself. -/
theorem take_getD_three {bs : List Byte} (h : bs.length ≤ 3) :
    [bs.getD 0 0#8, bs.getD 1 0#8, bs.getD 2 0#8].take bs.length = bs := by
  match bs, h with
  | [], _ => rfl
  | [_], _ => rfl
  | [_, _], _ => rfl
  | [_, _, _], _ => rfl

@[simp] theorem opcode_instrOfBytes (op : Byte) (bs : List Byte) : (instrOfBytes op bs).opcode = op :=
  opcode_instrOf _ _ _ _

/-- R112: an instruction built from its operand bytes has their number as its length. -/
theorem len_instrOfBytes {m8 x8 : Bool} {op : Byte} {bs : List Byte} (h : bs.length + 1 = opcodeLen m8 x8 op) :
    (instrOfBytes op bs).mode.len m8 x8 = bs.length + 1 := by
  rw [← opcodeLen_opcode, opcode_instrOfBytes, h]

/-- R111: the operand bytes, cut to the widths in force, are those that the instruction was built from. -/
theorem operandBytes_instrOfBytes {m8 x8 : Bool} {op : Byte} {bs : List Byte}
    (h : bs.length + 1 = opcodeLen m8 x8 op) : (instrOfBytes op bs).mode.operandBytes m8 x8 = bs := by
  have hl := len_instrOfBytes h
  have hle := (instrOfBytes op bs).mode.len_le m8 x8
  have h4 := ((instrOfBytes op bs).mode.len_bounds m8 x8).2
  have hwide : (instrOfBytes op bs).mode.operandBytes false false =
      [bs.getD 0 0#8, bs.getD 1 0#8, bs.getD 2 0#8].take ((instrOfBytes op bs).mode.len false false - 1) :=
    operandBytes_instrOf _ _ _ _
  rw [Mode.operandBytes_take, hwide, List.take_take, hl, Nat.min_eq_left (by omega), Nat.add_sub_cancel,
    take_getD_three (by omega)]

/-- Cutting a list leaves a position that holds the default value with it. -/
theorem getD_take_of_getD {l : List Byte} {k : Nat} (h : l.getD k 0#8 = 0#8) (n : Nat) :
    (l.take n).getD k 0#8 = 0#8 := by
  rw [List.getD_eq_getElem?_getD] at h ⊢
  rw [List.getElem?_take]
  split
  · exact h
  · rfl

/-- R113: an instruction built from its operand bytes is well-formed, the bytes it leaves out being 0. -/
theorem wellFormed_instrOfBytes {m8 x8 : Bool} {op : Byte} {bs : List Byte}
    (h : bs.length + 1 = opcodeLen m8 x8 op) : WellFormed m8 x8 (instrOfBytes op bs) = true := by
  rw [wellFormed_eq_fits]
  refine Mode.fits_of_getD fun k hk => ?_
  rw [len_instrOfBytes h, Nat.add_sub_cancel] at hk
  have hz : bs.getD k 0#8 = 0#8 := List.getD_eq_default _ _ hk
  rw [instrOfBytes, operandBytes_instrOf]
  refine getD_take_of_getD ?_ _
  match k, hz with
  | 0, hz | 1, hz | 2, hz => exact hz
  | _ + 3, _ => rfl

/-- Settles O3: the bytes that decoding takes are as many as the opcode's length, so the encoding gives them back. -/
theorem decodeThenEncodeGivesBytes : Obligations.DecodeThenEncodeGivesBytes := by
  intro m8 x8 bytes rest i h
  obtain ⟨op, bs, rfl, hlen, rfl⟩ := decode_eq_ok_iff.mp h
  refine ⟨wellFormed_instrOfBytes hlen, ?_⟩
  rw [encode, opcode_instrOfBytes, operandBytes_instrOfBytes hlen, List.cons_append]

/-- Settles O4: no opcode asks for more than four bytes, and every arm of `exec` answers a next state. -/
theorem everyOpcodeIsAnInstruction : Obligations.EveryOpcodeIsAnInstruction := by
  intro m8 x8 b0 b1 b2 b3
  obtain ⟨h1, h4⟩ := opcodeLen_bounds m8 x8 b0
  have hlen : ([b1, b2, b3].take (opcodeLen m8 x8 b0 - 1)).length + 1 = opcodeLen m8 x8 b0 := by
    simp only [List.length_take, List.length_cons, List.length_nil]
    omega
  have hsplit := (List.take_append_drop (opcodeLen m8 x8 b0 - 1) [b1, b2, b3]).symm
  exact ⟨_, _, decode_eq_ok_iff.mpr ⟨b0, _, congrArg (b0 :: ·) hsplit, hlen, rfl⟩, opcode_instrOfBytes _ _,
    Machine.exec_eq_next _⟩

/-- R113: the mode's operand is an immediate of the accumulator's width. -/
def Mode.isImmM : Mode → Bool
  | .immM _ => true
  | _ => false

/-- R113: the mode's operand is an immediate of the index registers' width. -/
def Mode.isImmX : Mode → Bool
  | .immX _ => true
  | _ => false

/-- R112, R113: a 16-bit immediate is one byte longer than an 8-bit one; no other length depends on the widths. -/
theorem Mode.len_eq_narrow_add (m8 x8 : Bool) (m : Mode) : m.len m8 x8 =
    m.len true true + if (m.isImmM = true ∧ m8 = false) ∨ (m.isImmX = true ∧ x8 = false) then 1 else 0 := by
  cases m with
  | immM _ => cases m8 <;> rfl
  | immX _ => cases x8 <;> rfl
  | _ => rfl

/-- R113, R117: the opcodes whose immediate has the accumulator's width. -/
theorem opcode_mem_immM_iff (i : Instr) :
    i.opcode.toNat ∈ [0x09, 0x29, 0x49, 0x69, 0x89, 0xA9, 0xC9, 0xE9] ↔ i.mode.isImmM = true := by
  have h : decide (i.opcode.toNat ∈ [0x09, 0x29, 0x49, 0x69, 0x89, 0xA9, 0xC9, 0xE9]) = i.mode.isImmM := by
    cases i <;> rfl
  rw [← h, decide_eq_true_iff]

/-- R113, R117: the opcodes whose immediate has the index registers' width. -/
theorem opcode_mem_immX_iff (i : Instr) : i.opcode.toNat ∈ [0xA0, 0xA2, 0xC0, 0xE0] ↔ i.mode.isImmX = true := by
  have h : decide (i.opcode.toNat ∈ [0xA0, 0xA2, 0xC0, 0xE0]) = i.mode.isImmX := by
    cases i <;> rfl
  rw [← h, decide_eq_true_iff]

/-- Settles O5: the widths matter to the two kinds of immediate alone, so the table needs checking at 8 bits only. -/
theorem encodingLengths : Obligations.EncodingLengths := by
  intro m8 x8 i
  obtain ⟨hhead, hlen, -⟩ := encode_shape i m8 x8
  refine ⟨hhead, ?_⟩
  simp only [opcode_mem_immM_iff, opcode_mem_immX_iff]
  rw [hlen, Instr.len, Mode.len_eq_narrow_add]
  congr 1
  cases i <;> (simp only [Instr.opcode, BitVec.reduceToNat, Nat.reduceDiv, Nat.reduceMod]; rfl)

/-- Settles O1: the decoder computes each answer. -/
theorem specWordsDecode : Obligations.SpecWordsDecode := by
  unfold Obligations.SpecWordsDecode
  and_intros <;> rfl

end Sys2Proof
end

section
/-! SUPPORT. The effective address of the memory modes, in numbers. -/

namespace Sys2Proof.Machine

/-- What a mode resolves to, in numbers: the 24-bit address, the page predicate, and the bus after the pointer reads. -/
def EA.Gives (e : EA) (n : Nat) (crossed : Bool) (b : Bus) : Prop :=
  e.addr.asInteger = n ∧ e.crossed = crossed ∧ e.bus = b

/-- R156: the page predicate, in numbers. -/
theorem pageCrossed_eq_decide (o idx : Word) :
    pageCrossed o idx = decide (o.toNat / 256 ≠ (o.toNat + idx.toNat) % 65536 / 256) := by
  rw [Bool.eq_iff_iff, decide_eq_true_iff]
  exact bne_iff_ne

theorem plainEA_gives {a : Addr} {n : Nat} (b : Bus) (h : a.asInteger = n) : (plainEA a b).Gives n false b :=
  ⟨h, rfl, rfl⟩

/-- R137, R138, R148: the sum carries into the bank (modulo 2^24, decision D9). -/
theorem indexedEA_gives (a : Addr) (idx : Word) (b : Bus) :
    (indexedEA a idx b).Gives ((a.asInteger + idx.toNat) % 16777216)
      (decide (a.offset.toNat / 256 ≠ (a.offset.toNat + idx.toNat) % 65536 / 256)) b :=
  ⟨a.asInteger_withOffsetNoWrap_nat idx.toNat, pageCrossed_eq_decide a.offset idx, rfl⟩

/-- R140, R149, R151: the same sum in a mode that pays no page penalty. -/
theorem indexedLongEA_gives (a : Addr) (idx : Word) (b : Bus) :
    (indexedLongEA a idx b).Gives ((a.asInteger + idx.toNat) % 16777216) false b :=
  ⟨a.asInteger_withOffsetNoWrap_nat idx.toNat, rfl, rfl⟩

/-! ## Addresses in bank 0 -/

theorem asInteger_bank0 (o : Word) : (⟨0x00#8, o⟩ : Addr).asInteger = o.toNat := by
  simp [Addr.asInteger]

/-- R143, R144: an indexed direct-page address, in numbers (decision D18 for the wrap in emulation mode). -/
theorem State.asInteger_dpAddr_indexed (s : State) (d : Byte) (idx : Word) :
    (s.dpAddr (zext16 d + idx)).asInteger =
      ((if s.p.e then d.toNat else s.dp.toNat + d.toNat) + idx.toNat) % 65536 := by
  rw [State.dpAddr, asInteger_bank0, State.dpOff]
  cases s.p.e with
  | true => simp only [if_true, BitVec.toNat_add, toNat_zext16]
  | false => simp only [Bool.false_eq_true, if_false, BitVec.toNat_add, toNat_zext16, Nat.add_mod_mod, Nat.add_assoc]

/-- R142: a direct-page address, in numbers. -/
theorem State.asInteger_dpAddr (s : State) (d : Byte) :
    (s.dpAddr (zext16 d)).asInteger = (if s.p.e then d.toNat else s.dp.toNat + d.toNat) % 65536 := by
  simpa using s.asInteger_dpAddr_indexed d 0x0000#16

/-- R141, R147: indexing before or after D is added gives one address. -/
theorem State.dpAddr_indexed (s : State) (d : Byte) (idx : Word) :
    s.dpAddr (zext16 d + idx) = ⟨0x00#8, (if s.p.e then zext16 d else s.dp + zext16 d) + idx⟩ := by
  rw [State.dpAddr, State.dpOff]
  split
  · rfl
  · rw [BitVec.add_assoc]

/-- R150: a stack-relative address, in numbers. -/
theorem State.asInteger_srAddr (s : State) (d : Byte) :
    (s.srAddr d).asInteger = (s.sp.toNat + d.toNat) % 65536 := by
  rw [State.srAddr, asInteger_bank0, BitVec.toNat_add, toNat_zext16]

/-! ## Pointers -/

/-- The first byte of a multi-byte access is at the address itself. -/
@[simp] theorem nextAddr_zero (P : Platform) (a : Addr) : nextAddr P a 0 = a := by
  unfold nextAddr
  split
  · apply Addr.eq_of_asInteger
    rw [Addr.asInteger_withOffsetNoWrap_nat, Nat.add_zero, Nat.mod_eq_of_lt a.asInteger_lt]
  · rw [Addr.withOffset_nat, BitVec.add_zero]

/-- A two-byte pointer where no device answers at its bytes. -/
theorem State.readPointer16 {s : State} {a : Addr} (h : ∀ n, n < 2 → NoDevice s.plat (nextAddr s.plat a n)) :
    memRead16 s.plat a s.bus = (s.wordAt a, s.bus) :=
  memRead16_noDevice s rfl (nextAddr_zero s.plat a ▸ h 0 (by decide)) (h 1 (by decide))

/-- A three-byte pointer where no device answers at its bytes. -/
theorem State.readPointer24 {s : State} {a : Addr} (h : ∀ n, n < 3 → NoDevice s.plat (nextAddr s.plat a n)) :
    memRead24 s.plat a s.bus = (s.longAt a, s.bus) :=
  memRead24_noDevice s rfl (nextAddr_zero s.plat a ▸ h 0 (by decide)) (h 1 (by decide)) (h 2 (by decide))

/-- R145, R148: what the modes through a direct-page pointer to the data bank resolve to. -/
theorem resolve_dpInd {s : State} {d : Byte} {p : Word}
    (h : memRead16 s.plat (s.dpAddr (zext16 d)) s.bus = (p, s.bus)) :
    resolve (.dpInd d) s = plainEA ⟨s.dbr, p⟩ s.bus ∧ resolve (.dpIndY d) s = indexedEA ⟨s.dbr, p⟩ s.getY s.bus := by
  simp only [resolve, h, and_self]

/-- R147: what the mode through an indexed direct-page pointer resolves to. -/
theorem resolve_dpXInd {s : State} {d : Byte} {p : Word}
    (h : memRead16 s.plat (s.dpAddr (zext16 d + s.getX)) s.bus = (p, s.bus)) :
    resolve (.dpXInd d) s = plainEA ⟨s.dbr, p⟩ s.bus := by
  simp only [resolve, h]

/-- R146, R149: what the modes through a long direct-page pointer resolve to. -/
theorem resolve_dpIndL {s : State} {d : Byte} {p : Addr}
    (h : memRead24 s.plat (s.dpAddr (zext16 d)) s.bus = (p, s.bus)) :
    resolve (.dpIndL d) s = plainEA p s.bus ∧ resolve (.dpIndLY d) s = indexedLongEA p s.getY s.bus := by
  simp only [resolve, h, and_self]

/-- R151: what the mode through a stack-relative pointer resolves to. -/
theorem resolve_srIndY {s : State} {d : Byte} {p : Word}
    (h : memRead16 s.plat (s.srAddr d) s.bus = (p, s.bus)) :
    resolve (.srIndY d) s = indexedLongEA ⟨s.dbr, p⟩ s.getY s.bus := by
  simp only [resolve, h]

/-- Settles O44: each mode is one of three shapes of address, at a base or at a pointer whose read leaves the bus. -/
theorem effectiveAddresses : Obligations.EffectiveAddresses := by
  refine ⟨fun d a l s => ?direct, fun d s => ⟨fun h => ?dp, fun h => ?dpX, fun h => ?dpLong, fun h => ?sr⟩⟩
  case direct =>
    exact ⟨plainEA_gives _ rfl, indexedEA_gives ⟨s.dbr, a⟩ s.getX _, indexedEA_gives ⟨s.dbr, a⟩ s.getY _,
      plainEA_gives _ rfl, indexedLongEA_gives l s.getX _, plainEA_gives _ (s.asInteger_dpAddr d),
      plainEA_gives _ (s.asInteger_dpAddr_indexed d s.getX), plainEA_gives _ (s.asInteger_dpAddr_indexed d s.getY),
      plainEA_gives _ (s.asInteger_srAddr d)⟩
  case dp =>
    obtain ⟨hplain, hindexed⟩ := resolve_dpInd (d := d) (State.readPointer16 h)
    dsimp only
    rw [hplain, hindexed]
    exact ⟨plainEA_gives _ rfl, indexedEA_gives _ s.getY _⟩
  case dpX =>
    have hpointer := (congrArg (memRead16 s.plat · s.bus) (s.dpAddr_indexed d s.getX)).trans (State.readPointer16 h)
    dsimp only
    rw [resolve_dpXInd hpointer]
    exact plainEA_gives _ rfl
  case dpLong =>
    obtain ⟨hplain, hindexed⟩ := resolve_dpIndL (d := d) (State.readPointer24 h)
    dsimp only
    rw [hplain, hindexed]
    exact ⟨plainEA_gives _ rfl, indexedLongEA_gives _ s.getY _⟩
  case sr =>
    dsimp only
    rw [resolve_srIndY (d := d) (State.readPointer16 h)]
    exact indexedLongEA_gives _ s.getY _

end Sys2Proof.Machine
end

section
/-! SUPPORT. Loads and stores: what an entry of a rule's encoding list stands for, which is its opcode byte and the
meaning of its instruction as an operation of that byte and the entry's mode. -/

namespace Sys2Proof.Machine

/-- R117: the entry's byte is its instruction's opcode, and the instruction runs `g` at that byte and mode. -/
structure Form.Runs (f : Form) (g : Byte → Mode → State → State) : Prop where
  opcode_eq : f.instr.opcode = f.op
  exec_eq : ∀ s, exec f.instr s = .next (g f.op f.mode s)

/-- The instruction of an entry answers what its operation gives, whatever value that puts in the cycle counter. -/
theorem Form.Runs.answers {f : Form} {g : Byte → Mode → State → State} (h : f.Runs g) {s : State}
    {t : BitVec 64 → State} {c : BitVec 64} (ht : g f.op f.mode s = t c) :
    f.instr.opcode = f.op ∧ ∃ c, exec f.instr s = .next (t c) :=
  ⟨h.opcode_eq, c, (h.exec_eq s).trans (congrArg _ ht)⟩

/-- Settles O13: each entry runs `lda`, `ldx` or `ldy`, and each of these is the record that the statement gives. -/
theorem loadsLoadTheRegister : Obligations.LoadsLoadTheRegister := by
  refine ⟨fun d v a l s f hf => Form.Runs.answers ?lda (lda_eq _ _ s), fun d v a s =>
    ⟨fun f hf => Form.Runs.answers ?ldx (ldx_eq _ _ s), fun f hf => Form.Runs.answers ?ldy (ldy_eq _ _ s)⟩⟩
  case lda | ldx | ldy => fin_cases hf <;> exact ⟨rfl, fun _ => rfl⟩

/-- Settles O14: each entry runs `sta`, `stx`, `sty` or `stz`, which write the bus, PC and the cycle counter alone. -/
theorem storesWriteTheRegister : Obligations.StoresWriteTheRegister := by
  refine fun d a l s =>
    ⟨fun f hf => Form.Runs.answers ?sta (sta_eq _ _ s), fun f hf => Form.Runs.answers ?stx (stx_eq _ _ s),
     fun f hf => Form.Runs.answers ?sty (sty_eq _ _ s), fun f hf => Form.Runs.answers ?stz (stz_eq _ _ s)⟩
  case sta | stx | sty | stz => fin_cases hf <;> exact ⟨rfl, fun _ => rfl⟩

end Sys2Proof.Machine
end

section
/-! SUPPORT. The adders of R190 to R195 as arithmetic on numbers: binary, signed and decimal. -/

namespace Sys2Proof.Machine

/-! ## Binary and signed -/

/-- R190: result and carry together are the integer sum. -/
theorem addBin_splits {w : Width} {a b : Word} (c : Bool) (ha : a.toNat < 2 ^ w.bits) (hb : b.toNat < 2 ^ w.bits) :
    (addBin w a b c).1.toNat + 2 ^ w.bits * (addBin w a b c).2.toNat = a.toNat + b.toNat + c.toNat := by
  have hc := c.toNat_le
  rw [addBin_fst_toNat, addBin_snd]
  by_cases h : 2 ^ w.bits ≤ a.toNat + b.toNat + c.toNat
  · rw [decide_eq_true h, Nat.mod_eq_sub_mod h, Nat.mod_eq_of_lt (by omega)]
    simp; omega
  · rw [decide_eq_false h, Nat.mod_eq_of_lt (by omega)]
    simp

/-- R190: adding the complement subtracts, modulo 2^w. -/
theorem addBin_complement_fst {w : Width} (a : Word) {b : Word} (c : Bool) (hb : b.toNat < 2 ^ w.bits) :
    ((addBin w a (complement w b) c).1.toNat : Int) = ((a.toNat : Int) - b.toNat - (1 - c.toNat)) % 2 ^ w.bits := by
  rw [addBin_fst_toNat, toNat_complement hb]
  cases w <;> simp only [Width.bits] at * <;> omega

/-- R190: adding the complement carries out exactly when nothing is borrowed. -/
theorem addBin_complement_snd {w : Width} (a : Word) {b : Word} (c : Bool) (hb : b.toNat < 2 ^ w.bits) :
    (addBin w a (complement w b) c).2 = true ↔ b.toNat + 1 ≤ a.toNat + c.toNat := by
  rw [addBin_snd, toNat_complement hb, decide_eq_true_eq]
  omega

/-- Settles O49: the sum splits into result and carry, and the complement turns the sum into the difference. -/
theorem binaryAdderAddsIntegers : Obligations.BinaryAdderAddsIntegers :=
  fun w a b c ha hb => ⟨addBin_splits c ha hb, addBin_fst_lt w a b c, addBin_complement_fst a c hb,
    addBin_complement_snd a c hb⟩

/-- The two's-complement value of `v` where the sign bit has the weight `h`. -/
def signedValue (h v : Nat) : Int := if v < h then v else v - 2 * h

/-- The sign bit is 0 or 1, and the bits below it are what stays modulo its weight. -/
theorem signedValue_cases {h v : Nat} (hv : v < 2 * h) :
    (v < h ∧ v % h = v ∧ signedValue h v = v) ∨ (h ≤ v ∧ v % h = v - h ∧ signedValue h v = v - 2 * h) := by
  unfold signedValue
  rcases Nat.lt_or_ge v h with hlt | hge
  · exact .inl ⟨hlt, Nat.mod_eq_of_lt hlt, if_pos hlt⟩
  · refine .inr ⟨hge, ?_, if_neg (by omega)⟩
    rw [Nat.mod_eq_sub_mod hge, Nat.mod_eq_of_lt (by omega)]

/-- R191: the carries into and out of the sign bit differ exactly when the signed sum leaves the range. -/
theorem carries_differ_iff {h a b c : Nat} (ha : a < 2 * h) (hb : b < 2 * h) (hc : c ≤ 1) :
    ¬(h ≤ a % h + b % h + c ↔ 2 * h ≤ a + b + c) ↔
      signedValue h a + signedValue h b + c < -h ∨ h ≤ signedValue h a + signedValue h b + c := by
  obtain ⟨hla, hma, hsa⟩ | ⟨hla, hma, hsa⟩ := signedValue_cases ha <;>
  obtain ⟨hlb, hmb, hsb⟩ | ⟨hlb, hmb, hsb⟩ := signedValue_cases hb <;>
  rw [hma, hmb, hsa, hsb] <;> omega

/-- Settles O50: `overflow` compares the two carries, the sign bit having the weight 2^(w-1). -/
theorem overflowIsSignedRange : Obligations.OverflowIsSignedRange := by
  intro w a b c ha hb
  rw [overflow, bne_iff_ne, ne_eq, decide_eq_decide]
  cases w with
  | w8 => exact carries_differ_iff (h := 128) ha hb c.toNat_le
  | w16 => exact carries_differ_iff (h := 32768) ha hb c.toNat_le

/-! ## Decimal -/

theorem isBcd_iff (a : Byte) : isBcd a = true ↔ a.toNat % 16 ≤ 9 ∧ a.toNat / 16 ≤ 9 := by
  rw [isBcd, Bool.and_eq_true, decide_eq_true_eq, decide_eq_true_eq]

/-- A byte put together from two decimal digits has those digits. -/
theorem bcd_of_digits {hi lo : Nat} (hh : hi ≤ 9) (hl : lo ≤ 9) :
    isBcd (BitVec.ofNat 8 (16 * hi + lo)) = true ∧ bcdValue8 (BitVec.ofNat 8 (16 * hi + lo)) = 10 * hi + lo := by
  rw [isBcd_iff, bcdValue8, BitVec.toNat_ofNat]
  omega

/-- R192: a digit sum below 20 splits into a digit and a carry. -/
theorem digit_of_sum {n : Nat} (h : n ≤ 19) :
    (if decide (10 ≤ n) = true then n - 10 else n) % 16 ≤ 9 ∧
      (if decide (10 ≤ n) = true then n - 10 else n) % 16 + 10 * (decide (10 ≤ n)).toNat = n := by
  by_cases hc : 10 ≤ n <;> simp only [hc, decide_true, decide_false, if_true, Bool.false_eq_true, if_false,
    Bool.toNat_true, Bool.toNat_false] <;> omega

/-- R193: a digit difference from -10 up to 9 splits into a digit and a borrow. -/
theorem digit_of_difference {n : Int} (h : -10 ≤ n) (h' : n ≤ 9) :
    ((if decide (n < 0) = true then n + 10 else n) % 16).toNat ≤ 9 ∧
      (((if decide (n < 0) = true then n + 10 else n) % 16).toNat : Int) = n + 10 * (decide (n < 0)).toNat := by
  by_cases hc : n < 0 <;> simp only [hc, decide_true, decide_false, if_true, Bool.false_eq_true, if_false,
    Bool.toNat_true, Bool.toNat_false] <;> omega

/-- R192: one limb of an addition on decimal digits. -/
theorem decAdd8_decimal (n : Nat) {a b : Byte} (c : Bool) (ha : isBcd a = true) (hb : isBcd b = true) :
    isBcd (decAdd8 n a b c).1 = true ∧
      bcdValue8 (decAdd8 n a b c).1 + 100 * (decAdd8 n a b c).2.toNat = bcdValue8 a + bcdValue8 b + c.toNat := by
  have hr : decAdd8 n a b c = decAddDigits a b c := by rw [decAdd8, ha, hb]; rfl
  obtain ⟨hal, hah⟩ := (isBcd_iff a).mp ha
  obtain ⟨hbl, hbh⟩ := (isBcd_iff b).mp hb
  have hc := c.toNat_le
  have hc1 := (decide (10 ≤ a.toNat % 16 + b.toNat % 16 + c.toNat)).toNat_le
  obtain ⟨hlo, elo⟩ := digit_of_sum (n := a.toNat % 16 + b.toNat % 16 + c.toNat) (by omega)
  obtain ⟨hhi, ehi⟩ := digit_of_sum
    (n := a.toNat / 16 + b.toNat / 16 + (decide (10 ≤ a.toNat % 16 + b.toNat % 16 + c.toNat)).toNat) (by omega)
  obtain ⟨hd, hv⟩ := bcd_of_digits hhi hlo
  rw [hr]
  refine ⟨hd, ?_⟩
  rw [decAddDigits, hv, bcdValue8, bcdValue8]
  dsimp only
  omega

/-- R193: one limb of a subtraction on decimal digits, the carry being 0 when it borrows. -/
theorem decSub8_decimal (n : Nat) {a b : Byte} (c : Bool) (ha : isBcd a = true) (hb : isBcd b = true) :
    isBcd (decSub8 n a b c).1 = true ∧
      bcdValue8 (decSub8 n a b c).1 + bcdValue8 b + 1 =
        bcdValue8 a + c.toNat + 100 * (!(decSub8 n a b c).2).toNat := by
  have hr : decSub8 n a b c = decSubDigits a b c := by rw [decSub8, ha, hb]; rfl
  obtain ⟨hal, hah⟩ := (isBcd_iff a).mp ha
  obtain ⟨hbl, hbh⟩ := (isBcd_iff b).mp hb
  have hc := c.toNat_le
  have hb1 := (decide ((a.toNat % 16 : Int) - b.toNat % 16 - (1 - c.toNat) < 0)).toNat_le
  obtain ⟨hlo, elo⟩ := digit_of_difference (n := (a.toNat % 16 : Int) - b.toNat % 16 - (1 - c.toNat))
    (by omega) (by omega)
  obtain ⟨hhi, ehi⟩ := digit_of_difference (n := (a.toNat / 16 : Int) - b.toNat / 16 -
    (decide ((a.toNat % 16 : Int) - b.toNat % 16 - (1 - c.toNat) < 0)).toNat) (by omega) (by omega)
  obtain ⟨hd, hv⟩ := bcd_of_digits hhi hlo
  rw [hr]
  refine ⟨hd, ?_⟩
  rw [decSubDigits, hv, bcdValue8, bcdValue8]
  dsimp only
  rw [Bool.not_not]
  omega

/-- R194, R195: the value of two limbs. -/
theorem bcdValue16_joinBytes (h l : Byte) : bcdValue16 (joinBytes h l) = 100 * bcdValue8 h + bcdValue8 l := by
  rw [bcdValue16, hiByte_joinBytes, loByte_joinBytes]

/-- R194: 16-bit addition on decimal digits, the carry of the low limb entering the high one. -/
theorem decAdd_w16_decimal (n : Nat) {a b : Word} (c : Bool) (hal : isBcd (loByte a) = true)
    (hah : isBcd (hiByte a) = true) (hbl : isBcd (loByte b) = true) (hbh : isBcd (hiByte b) = true) :
    isBcd (loByte (decAdd .w16 n a b c).1) = true ∧ isBcd (hiByte (decAdd .w16 n a b c).1) = true ∧
      bcdValue16 (decAdd .w16 n a b c).1 + 10000 * (decAdd .w16 n a b c).2.toNat =
        bcdValue16 a + bcdValue16 b + c.toNat := by
  obtain ⟨hlo, elo⟩ := decAdd8_decimal n c hal hbl
  obtain ⟨hhi, ehi⟩ := decAdd8_decimal (n + 1) (decAdd8 n (loByte a) (loByte b) c).2 hah hbh
  simp only [decAdd, twoLimbs, loByte_joinBytes, hiByte_joinBytes, bcdValue16_joinBytes]
  refine ⟨hlo, hhi, ?_⟩
  rw [bcdValue16, bcdValue16]
  omega

/-- R195, decision D24: 16-bit subtraction in two limbs, the borrow of the low limb entering the high one. -/
theorem decSub_w16_decimal (n : Nat) {a b : Word} (c : Bool) (hal : isBcd (loByte a) = true)
    (hah : isBcd (hiByte a) = true) (hbl : isBcd (loByte b) = true) (hbh : isBcd (hiByte b) = true) :
    isBcd (loByte (decSub .twoLimb .w16 n a b c).1) = true ∧ isBcd (hiByte (decSub .twoLimb .w16 n a b c).1) = true ∧
      bcdValue16 (decSub .twoLimb .w16 n a b c).1 + bcdValue16 b + 1 =
        bcdValue16 a + c.toNat + 10000 * (!(decSub .twoLimb .w16 n a b c).2).toNat := by
  obtain ⟨hlo, elo⟩ := decSub8_decimal n c hal hbl
  obtain ⟨hhi, ehi⟩ := decSub8_decimal (n + 1) (decSub8 n (loByte a) (loByte b) c).2 hah hbh
  have hnot : ∀ k : Bool, k.toNat + (!k).toNat = 1 := by decide
  have hcarry := hnot (decSub8 n (loByte a) (loByte b) c).2
  simp only [decSub, decSbc16, twoLimbs, loByte_joinBytes, hiByte_joinBytes, bcdValue16_joinBytes]
  refine ⟨hlo, hhi, ?_⟩
  rw [bcdValue16, bcdValue16]
  omega

/-- Settles O51: digit by digit, then limb by limb, each carry or borrow having the weight of the place above. -/
theorem decimalArithmeticIsDecimal : Obligations.DecimalArithmeticIsDecimal :=
  ⟨fun n c => ⟨fun _ _ => decAdd8_decimal n c, fun _ _ => decAdd_w16_decimal n c⟩,
   fun n c => ⟨fun _ _ => decSub8_decimal n c, fun _ _ => decSub_w16_decimal n c⟩⟩

end Sys2Proof.Machine
end

section
/-! SUPPORT. The arithmetic and logic instructions on the accumulator, on memory and on the index registers
(R196 to R212). -/

namespace Sys2Proof.Machine

/-! ## Read-modify-write -/

/-- R157, R234: a read-modify-write of a memory operand reads it and writes `f` of it at the same address. -/
theorem rmwInstr_memory {m : Mode} (hm : m ≠ .acc) (op : Byte) (w : Width) (f : Word → Word) (g : Word → Flags)
    (s : State) :
    rmwInstr op m w f g s =
      { s with
        bus := memWrite s.plat w (resolve m s).addr (f (memRead s.plat w (resolve m s).addr (resolve m s).bus).1)
          (memRead s.plat w (resolve m s).addr (resolve m s).bus).2,
        p := g (memRead s.plat w (resolve m s).addr (resolve m s).bus).1,
        pc := s.pc + BitVec.ofNat 16 (m.len s.m8 s.x8), cyc := s.cyc + BitVec.ofNat 64 (writeCycles op m w s) } := by
  obtain ⟨hacc, -⟩ | ⟨-, h⟩ := rmwInstr_cases op m w f g s
  · exact absurd hacc hm
  · exact h

/-- R157, R234: a read-modify-write of the accumulator makes no access of the bus. -/
theorem rmwInstr_accumulator (op : Byte) (w : Width) (f : Word → Word) (g : Word → Flags) (s : State) :
    rmwInstr op .acc w f g s =
      { s with a := writeKeep w (f (s.getA w)) s.a, p := g (s.getA w), pc := s.pc + 1#16,
               cyc := s.cyc + BitVec.ofNat 64 (s.cycles op (baseCycles op)) } := by
  obtain ⟨-, h⟩ | ⟨hacc, -⟩ := rmwInstr_cases op .acc w f g s
  · exact h
  · exact absurd rfl hacc

/-- Settles O22: each entry runs `tsb` or `trb`, a read-modify-write of memory whose flags are `testFlags`. -/
theorem testAndSetOrResetBits : Obligations.TestAndSetOrResetBits := by
  refine fun d a s =>
    ⟨fun f hf => Form.Runs.answers (g := tsb) ?runs (rmwInstr_memory ?memory f.op s.wA _ _ s),
     fun f hf => Form.Runs.answers (g := trb) ?runs' (rmwInstr_memory ?memory' f.op s.wA _ _ s)⟩
  case runs | runs' => fin_cases hf <;> exact ⟨rfl, fun _ => rfl⟩
  case memory | memory' => fin_cases hf <;> exact nofun

/-- Settles O20: each entry runs `inc` or `dec`, which count the accumulator or the operand just read. -/
theorem incAndDecCountModuloTheWidth : Obligations.IncAndDecCountModuloTheWidth := by
  intro d a s up down onA onMemory
  have hup : ∀ v, up v = increment s.wA v := fun v => (increment_eq s.wA v).symm
  have hdown : ∀ v, v.toNat < 2 ^ s.wA.bits → down v = decrement s.wA v := fun v hv => (decrement_eq hv).symm
  have hdownA : down (trunc s.wA s.a) = decrement s.wA (trunc s.wA s.a) := hdown _ (toNat_trunc_lt s.wA s.a)
  have hdownMemory : ∀ x b, down (memRead s.plat s.wA x b).1 = decrement s.wA (memRead s.plat s.wA x b).1 :=
    fun x b => hdown _ (memRead_lt s.plat s.wA x b)
  simp only [onA, onMemory, hup, hdownA, hdownMemory]
  refine ⟨fun f hf => ?incA, fun f hf => ?decA,
    fun f hf => Form.Runs.answers (g := inc) ?inc (rmwInstr_memory ?notAcc f.op s.wA _ _ s),
    fun f hf => Form.Runs.answers (g := dec) ?dec (rmwInstr_memory ?notAcc' f.op s.wA _ _ s)⟩
  case incA =>
    obtain rfl := List.mem_singleton.mp hf
    exact Form.Runs.answers (g := inc) ⟨rfl, fun _ => rfl⟩ (rmwInstr_accumulator _ s.wA _ _ s)
  case decA =>
    obtain rfl := List.mem_singleton.mp hf
    exact Form.Runs.answers (g := dec) ⟨rfl, fun _ => rfl⟩ (rmwInstr_accumulator _ s.wA _ _ s)
  case inc | dec => fin_cases hf <;> exact ⟨rfl, fun _ => rfl⟩
  case notAcc | notAcc' => fin_cases hf <;> exact nofun

/-- Settles O21: `inx`, `iny`, `dex` and `dey` count with `increment` and `decrement`, which are arithmetic modulo the
width. -/
theorem indexCountersCountModuloTheWidth : Obligations.IndexCountersCountModuloTheWidth := by
  intro s n up down
  have hup : ∀ v, increment s.wX (trunc s.wX v) = up v := fun _ => increment_eq _ _
  have hdown : ∀ v, decrement s.wX (trunc s.wX v) = down v := fun v => decrement_eq (toNat_trunc_lt s.wX v)
  simp only [← hup, ← hdown]
  exact ⟨rfl, rfl, rfl, rfl, ⟨_, congrArg _ (inx_eq _ s)⟩, ⟨_, congrArg _ (iny_eq _ s)⟩,
    ⟨_, congrArg _ (dex_eq _ s)⟩, ⟨_, congrArg _ (dey_eq _ s)⟩⟩

/-! ## Comparisons -/

/-- R213: the flags of comparing a register with a loaded operand. -/
theorem compare_load (w : Width) (r : Word) (m : Mode) (s : State) :
    s.p.compare w (trunc w r) (load m w s).val =
      { s.p with n := topBit w (trunc w r - (load m w s).val), z := trunc w r == (load m w s).val,
                 c := decide ((load m w s).val.toNat ≤ (trunc w r).toNat) } :=
  Flags.compare_eq s.p (toNat_trunc_lt w r) (load_lt m w s)

/-- Settles O19: each entry runs `cmpInstr`, `cpx` or `cpy`, whose only effect is the flags of the comparison. -/
theorem comparesSetTheFlags : Obligations.ComparesSetTheFlags := by
  intro d v a l s compared
  simp only [compared, ← compare_load]
  refine ⟨fun f hf => Form.Runs.answers ?cmp (cmpInstr_eq _ _ s), fun f hf => Form.Runs.answers ?cpx (cpx_eq _ _ s),
    fun f hf => Form.Runs.answers ?cpy (cpy_eq _ _ s)⟩
  case cmp | cpx | cpy => fin_cases hf <;> exact ⟨rfl, fun _ => rfl⟩

/-! ## The accumulator and the operand -/

/-- Log 9: a decimal operation advances the counter of free values by two, a binary one leaves it. -/
theorem Bus.afterDecimal_eq (k : Bool) (b : Bus) :
    b.afterDecimal k = { b with draws := b.draws + if k then 2 else 0 } := by
  cases k <;> rfl

/-- Settles O15: each entry runs `adc`, whose bus is the load's but for the free values of a decimal sum. -/
theorem adcAddsWithCarry : Obligations.AdcAddsWithCarry := by
  intro d v a l s f hf
  have hadc := adc_eq f.op f.mode s
  rw [Bus.afterDecimal_eq] at hadc
  refine Form.Runs.answers ?adc hadc
  case adc => fin_cases hf <;> exact ⟨rfl, fun _ => rfl⟩

/-- Settles O16: each entry runs `sbc`, whose bus is the load's but for the free values of a decimal difference. -/
theorem sbcSubtractsWithBorrow : Obligations.SbcSubtractsWithBorrow := by
  intro d v a l s f hf
  have hsbc := sbc_eq f.op f.mode s
  rw [Bus.afterDecimal_eq] at hsbc
  refine Form.Runs.answers ?sbc hsbc
  case sbc => fin_cases hf <;> exact ⟨rfl, fun _ => rfl⟩

/-- Settles O17: each entry runs `andInstr`, `ora` or `eor`, each of them the record that the statement gives. -/
theorem logicOnTheAccumulator : Obligations.LogicOnTheAccumulator := by
  refine fun d v a l s =>
    ⟨fun f hf => Form.Runs.answers ?and (andInstr_eq _ _ s), fun f hf => Form.Runs.answers ?ora (ora_eq _ _ s),
     fun f hf => Form.Runs.answers ?eor (eor_eq _ _ s)⟩
  case and | ora | eor => fin_cases hf <;> exact ⟨rfl, fun _ => rfl⟩

/-- Settles O18: the memory forms run `bitMem`, the immediate form runs `bitImmediate`, which reads no bus. -/
theorem bitTestsTheAccumulator : Obligations.BitTestsTheAccumulator := by
  refine fun d v a s => ⟨fun f hf => Form.Runs.answers ?memory (bitMem_eq _ _ s), fun f hf => ?immediate⟩
  case memory => fin_cases hf <;> exact ⟨rfl, fun _ => rfl⟩
  case immediate =>
    obtain rfl := List.mem_singleton.mp hf
    exact Form.Runs.answers ⟨rfl, fun _ => rfl⟩ (bitImmediate_eq _ _ s)

end Sys2Proof.Machine
end

section
/-! SUPPORT. The shifts and rotations on the accumulator and on memory, as arithmetic on numbers (R230 to R234). -/

namespace Sys2Proof.Machine

/-! ## The shape of a shift -/

/-- R234: the read-modify-write that a shift or rotation is: `g` gives the result, `out` the bit that leaves. -/
def shiftRmw (op : Byte) (m : Mode) (g : Word → Word) (out : Word → Bool) (s : State) : State :=
  rmwInstr op m s.wA g (fun v => shiftFlags s.wA (g v) (out v) s.p) s

/-- A read-modify-write asks for its result and its flags at operands of the width alone. -/
theorem rmwInstr_congr (op : Byte) (m : Mode) {w : Width} {f f' : Word → Word} {g g' : Word → Flags} (s : State)
    (hf : ∀ v, v.toNat < 2 ^ w.bits → f v = f' v) (hg : ∀ v, v.toNat < 2 ^ w.bits → g v = g' v) :
    rmwInstr op m w f g s = rmwInstr op m w f' g' s := by
  by_cases hm : m = .acc
  · subst hm
    have hv : (s.getA w).toNat < 2 ^ w.bits := toNat_trunc_lt w s.a
    rw [rmwInstr_accumulator, rmwInstr_accumulator, hf _ hv, hg _ hv]
  · have hv := memRead_lt s.plat w (resolve m s).addr (resolve m s).bus
    rw [rmwInstr_memory hm, rmwInstr_memory hm, hf _ hv, hg _ hv]

/-- Two shifts whose results and outgoing bits agree at operands of the width do the same. -/
theorem shiftRmw_congr (op : Byte) (m : Mode) {g g' : Word → Word} {out out' : Word → Bool} (s : State)
    (hg : ∀ v, v.toNat < 2 ^ s.wA.bits → g v = g' v) (hout : ∀ v, v.toNat < 2 ^ s.wA.bits → out v = out' v) :
    shiftRmw op m g out s = shiftRmw op m g' out' s :=
  rmwInstr_congr op m s hg fun v hv => by rw [hg v hv, hout v hv]

/-! ## The four operations -/

/-- The top bit of a value of the width is set when the value is in the upper half of the range. -/
theorem topBit_eq_upperHalf {w : Width} {v : Word} (h : v.toNat < 2 ^ w.bits) :
    topBit w v = decide (2 ^ w.bits / 2 ≤ v.toNat) := by
  rw [topBit_eq, trunc_of_lt h]
  cases w <;> rfl

/-- R230: ASL doubles modulo 2^w, and the top bit leaves. -/
theorem asl_eq_shiftRmw (s : State) (op : Byte) (m : Mode) :
    asl op m s = shiftRmw op m (fun v => BitVec.ofNat 16 (2 * v.toNat % 2 ^ s.wA.bits))
      (fun v => decide (2 ^ s.wA.bits / 2 ≤ v.toNat)) s :=
  shiftRmw_congr op m s (fun v _ => shiftLeft_eq s.wA v) fun _ => topBit_eq_upperHalf

/-- R231: LSR halves, and bit 0 leaves. -/
theorem lsr_eq_shiftRmw (s : State) (op : Byte) (m : Mode) :
    lsr op m s = shiftRmw op m (fun v => BitVec.ofNat 16 (v.toNat / 2)) (fun v => decide (v.toNat % 2 = 1)) s :=
  shiftRmw_congr op m s (fun v _ => shiftRight_eq v) fun v _ => getLsbD_zero_eq v

/-- R232: ROL doubles modulo 2^w and adds the carry as it was before, and the top bit leaves. -/
theorem rol_eq_shiftRmw (s : State) (op : Byte) (m : Mode) :
    rol op m s = shiftRmw op m (fun v => BitVec.ofNat 16 (2 * v.toNat % 2 ^ s.wA.bits + s.p.c.toNat))
      (fun v => decide (2 ^ s.wA.bits / 2 ≤ v.toNat)) s :=
  shiftRmw_congr op m s (fun v _ => rotateLeft_eq s.wA s.p.c v) fun _ => topBit_eq_upperHalf

/-- R233: ROR halves, the carry as it was before entering the top bit, and bit 0 leaves. -/
theorem ror_eq_shiftRmw (s : State) (op : Byte) (m : Mode) :
    ror op m s = shiftRmw op m (fun v => BitVec.ofNat 16 (v.toNat / 2 + s.p.c.toNat * (2 ^ s.wA.bits / 2)))
      (fun v => decide (v.toNat % 2 = 1)) s :=
  shiftRmw_congr op m s (fun _ => rotateRight_eq s.p.c) fun v _ => getLsbD_zero_eq v

/-! ## The forms -/

/-- R234: the accumulator entry of a shift answers the record that `rmwInstr_accumulator` gives. -/
theorem Form.Runs.shiftsAccumulator {f : Form} {k : Byte → Mode → State → State} (h : f.Runs k)
    {g : Word → Word} {out : Word → Bool} {s : State} (hacc : f.mode = .acc)
    (hk : ∀ op m, k op m s = shiftRmw op m g out s) :
    f.instr.opcode = f.op ∧ ∃ c, exec f.instr s = .next
      { s with a := writeKeep s.wA (g (trunc s.wA s.a)) s.a,
               p := { s.p.nz s.wA (g (trunc s.wA s.a)) with c := out (trunc s.wA s.a) },
               pc := s.pc + 1#16, cyc := c } :=
  h.answers ((hk _ _).trans (hacc ▸ rmwInstr_accumulator f.op s.wA g _ s))

/-- R157, R234: a memory entry of a shift answers the record that `rmwInstr_memory` gives. -/
theorem Form.Runs.shiftsMemory {f : Form} {k : Byte → Mode → State → State} (h : f.Runs k)
    {g : Word → Word} {out : Word → Bool} {s : State} (hmem : f.mode ≠ .acc)
    (hk : ∀ op m, k op m s = shiftRmw op m g out s) :
    let e := resolve f.mode s
    let r := memRead s.plat s.wA e.addr e.bus
    f.instr.opcode = f.op ∧ ∃ c, exec f.instr s = .next
      { s with bus := memWrite s.plat s.wA e.addr (g r.1) r.2, p := { s.p.nz s.wA (g r.1) with c := out r.1 },
               pc := s.pc + BitVec.ofNat 16 (f.mode.len s.m8 s.x8), cyc := c } :=
  h.answers ((hk _ _).trans (rmwInstr_memory hmem f.op s.wA g _ s))

/-- Settles O23: each entry runs `asl`, `lsr`, `rol` or `ror`, whose results and carries are arithmetic on numbers. -/
theorem shiftsAndRotates : Obligations.ShiftsAndRotates := by
  refine ⟨fun d a s => ?shifts, fun d a s => ?rotations⟩
  case shifts =>
    intro n top low left right onA onMemory
    refine ⟨List.forall_mem_singleton.mpr
        (Form.Runs.shiftsAccumulator (g := left) (out := top) ⟨rfl, fun _ => rfl⟩ rfl (asl_eq_shiftRmw s)),
      fun f hf => Form.Runs.shiftsMemory (g := left) (out := top) ?asl ?leftMem (asl_eq_shiftRmw s),
      List.forall_mem_singleton.mpr
        (Form.Runs.shiftsAccumulator (g := right) (out := low) ⟨rfl, fun _ => rfl⟩ rfl (lsr_eq_shiftRmw s)),
      fun f hf => Form.Runs.shiftsMemory (g := right) (out := low) ?lsr ?rightMem (lsr_eq_shiftRmw s)⟩
    case asl | lsr => fin_cases hf <;> exact ⟨rfl, fun _ => rfl⟩
    case leftMem | rightMem => fin_cases hf <;> exact nofun
  case rotations =>
    intro n top low left right onA onMemory
    refine ⟨List.forall_mem_singleton.mpr
        (Form.Runs.shiftsAccumulator (g := left) (out := top) ⟨rfl, fun _ => rfl⟩ rfl (rol_eq_shiftRmw s)),
      fun f hf => Form.Runs.shiftsMemory (g := left) (out := top) ?rol ?leftMem (rol_eq_shiftRmw s),
      List.forall_mem_singleton.mpr
        (Form.Runs.shiftsAccumulator (g := right) (out := low) ⟨rfl, fun _ => rfl⟩ rfl (ror_eq_shiftRmw s)),
      fun f hf => Form.Runs.shiftsMemory (g := right) (out := low) ?ror ?rightMem (ror_eq_shiftRmw s)⟩
    case rol | ror => fin_cases hf <;> exact ⟨rfl, fun _ => rfl⟩
    case leftMem | rightMem => fin_cases hf <;> exact nofun

end Sys2Proof.Machine
end

section
/-! SUPPORT. The branches, jumps, calls and returns: displacements as signed numbers, what an entry of the branches'
list stands for, and a return after its call (R240 to R260). -/

namespace Sys2Proof.Machine

/-- An instruction that runs an operation answers what the operation gives, whatever value that puts in the cycle
counter. -/
theorem exec_answers {i : Instr} {s u : State} {t : BitVec 64 → State} {c : BitVec 64} (hexec : exec i s = .next u)
    (hu : u = t c) : ∃ c, exec i s = .next (t c) :=
  ⟨c, hexec.trans (congrArg _ hu)⟩

/-! ## Branches and jumps -/

/-- R9, R133: the target of a short branch, in numbers. -/
theorem State.rel8Target_eq_ofInt (s : State) (r : Byte) :
    s.rel8Target r = BitVec.ofInt 16 ((s.pc.toNat + 2 : Nat) + r.toInt) := by
  rw [BitVec.ofInt_add, BitVec.ofInt_natCast, BitVec.ofNat_add, BitVec.ofNat_toNat, BitVec.setWidth_eq]
  rfl

/-- R133: the target of a 16-bit displacement, in numbers. -/
theorem State.rel16Target_eq_ofInt (s : State) (r : Word) :
    s.rel16Target r = BitVec.ofInt 16 (s.pc.toNat + 3 + r.toInt) := by
  rw [BitVec.ofInt_add, BitVec.ofInt_add, BitVec.ofInt_natCast, BitVec.ofNat_toNat, BitVec.setWidth_eq,
    BitVec.ofInt_toInt]
  rfl

/-- R240: where a branch leaves PC, in numbers. -/
theorem State.branchPc_eq (s : State) (taken : Bool) (r : Byte) :
    (if taken then s.rel8Target r else s.pc + 2#16) =
      if taken then BitVec.ofInt 16 ((s.pc.toNat + 2 : Nat) + r.toInt) else BitVec.ofNat 16 (s.pc.toNat + 2) := by
  rw [s.rel8Target_eq_ofInt r, BitVec.ofNat_add, BitVec.ofNat_toNat, BitVec.setWidth_eq]

/-- R240: an entry whose instruction runs `branch` on its condition goes to its target when the condition holds. -/
theorem BranchForm.answers {f : BranchForm} {r : Byte} {s : State} (hop : f.instr.opcode = f.op)
    (hexec : exec f.instr s = .next (branch f.op f.taken r s)) :
    f.instr.opcode = f.op ∧ ∃ c, exec f.instr s = .next
      { s with pc := if f.taken then BitVec.ofInt 16 ((s.pc.toNat + 2 : Nat) + r.toInt)
                     else BitVec.ofNat 16 (s.pc.toNat + 2)
               cyc := c } := by
  have hbranch := branch_eq f.op f.taken r s
  rw [s.branchPc_eq] at hbranch
  exact ⟨hop, exec_answers hexec hbranch⟩

/-- Settles O24: each entry runs `branch` on the flag that it names. -/
theorem branchesGoWhereTheirFlagSays : Obligations.BranchesGoWhereTheirFlagSays := by
  refine fun r s f hf => BranchForm.answers ?opcode ?runs
  case opcode | runs => fin_cases hf <;> rfl

/-- Settles O25: the displacement of BRL as a signed number; each of the other jumps is its record, read at the pointer
that its mode resolves to. -/
theorem jumpsLoadTheProgramAddress : Obligations.JumpsLoadTheProgramAddress := by
  refine ⟨fun r a l s => ⟨List.forall_mem_singleton.mpr ?brl, List.forall_mem_singleton.mpr ?jmp,
      List.forall_mem_singleton.mpr ?jml⟩,
    fun a s => ⟨List.forall_mem_singleton.mpr ?absInd, List.forall_mem_singleton.mpr ?absXInd,
      List.forall_mem_singleton.mpr ?absIndL⟩⟩
  case brl =>
    rw [← s.rel16Target_eq_ofInt r]
    exact ⟨rfl, exec_answers rfl (brl_eq 0x82#8 r s)⟩
  case jmp => exact ⟨rfl, exec_answers rfl (jmp_eq 0x4C#8 a s)⟩
  case jml => exact ⟨rfl, exec_answers rfl (jml_eq 0x5C#8 l s)⟩
  case absInd => exact ⟨rfl, exec_answers rfl (jmpPointer_eq 0x6C#8 (.absInd a) s)⟩
  case absXInd => exact ⟨rfl, exec_answers rfl (jmpPointer_eq 0x7C#8 (.absXInd a) s)⟩
  case absIndL => exact ⟨rfl, exec_answers rfl (jmlPointer_eq 0xDC#8 (.absIndL a) s)⟩

/-! ## Calls and returns -/

/-- A pull reads S, the mode and the bus alone, so a jump before it moves past it. -/
theorem State.pull16_jumpTo (s : State) (t : Word) (c : Nat) :
    (s.jumpTo t c).pull16 = (s.pull16.1, s.pull16.2.jumpTo t c) := rfl

/-- The same for the three bytes of RTL and a jump that also sets the program bank. -/
theorem State.pull24_jumpTo (s : State) (k : Byte) (t : Word) (c : Nat) :
    (({ s with pbr := k } : State).jumpTo t c).pull24 =
      (s.pull24.1, ({ s.pull24.2 with pbr := k } : State).jumpTo t c) := rfl

/-- R256, R259: RTS right after JSR resumes at the instruction after the call, with S as before it. -/
theorem rts_jsr (op op' : Byte) (a : Word) {s : State} (hm : s.MemInv) (he : s.EmulationInv)
    (hr : ∀ x ∈ s.pushAddrs 3, InRegion s.plat x) :
    (rts op' (jsr op a s)).pc = s.pc + 3#16 ∧ (rts op' (jsr op a s)).pbr = s.pbr ∧
      (rts op' (jsr op a s)).sp = s.sp := by
  obtain ⟨-, hpull, -⟩ := pullUndoesPush s.pbr (s.pc + 2#16) s hm he hr
  rw [rts_eq, jsr, State.pull16_jumpTo, hpull]
  exact ⟨BitVec.add_assoc _ _ _, rfl, rfl⟩

/-- R258, R260: RTL right after JSL does so too, and brings the bank back. -/
theorem rtl_jsl (op op' : Byte) (l : Addr) {s : State} (hm : s.MemInv) (he : s.EmulationInv)
    (hr : ∀ x ∈ s.pushAddrs 3, InRegion s.plat x) :
    (rtl op' (jsl op l s)).pc = s.pc + 4#16 ∧ (rtl op' (jsl op l s)).pbr = s.pbr ∧
      (rtl op' (jsl op l s)).sp = s.sp := by
  obtain ⟨-, -, hpull⟩ := pullUndoesPush s.pbr (s.pc + 3#16) s hm he hr
  rw [rtl_eq, jsl, State.pull24_jumpTo, hpull]
  exact ⟨BitVec.add_assoc _ _ _, rfl, rfl⟩

/-- Settles O28: the return pulls what the call pushed, the address of the call's last byte, and adds one. -/
theorem returnUndoesCall : Obligations.ReturnUndoesCall := fun a l s hm he hr =>
  ⟨⟨jsr 0x20#8 a s, rts 0x60#8 (jsr 0x20#8 a s), rfl, rfl, rfl, rfl, rts_jsr _ _ a hm he hr⟩,
   ⟨jsl 0x22#8 l s, rtl 0x6B#8 (jsl 0x22#8 l s), rfl, rfl, rfl, rfl, rtl_jsl _ _ l hm he hr⟩⟩

/-- Settles O26: each entry runs `jsr`, `jsrPointer` or `jsl`, and each of these is the record that the statement
gives. -/
theorem callsPushTheReturnAddress : Obligations.CallsPushTheReturnAddress := by
  refine fun a l s => ⟨List.forall_mem_singleton.mpr ?jsr, List.forall_mem_singleton.mpr ?jsrPointer,
    List.forall_mem_singleton.mpr ?jsl⟩
  case jsr => exact ⟨rfl, exec_answers rfl (jsr_eq 0x20#8 a s)⟩
  case jsrPointer => exact ⟨rfl, exec_answers rfl (jsrPointer_eq 0xFC#8 (.absXInd a) s)⟩
  case jsl => exact ⟨rfl, exec_answers rfl (jsl_eq 0x22#8 l s)⟩

/-- Settles O27: RTS and RTL are the records that the statement gives. -/
theorem returnsPullAndAddOne : Obligations.ReturnsPullAndAddOne := fun s =>
  ⟨rfl, rfl, exec_answers rfl (rts_eq 0x60#8 s), exec_answers rfl (rtl_eq 0x6B#8 s)⟩

end Sys2Proof.Machine
end

section
/-! SUPPORT. The pushes and pulls of registers and of the status, and PEA, PEI and PER (R270 to R285). -/

namespace Sys2Proof.Machine

/-! ## Widths in force -/

/-- R286: a push at the width that a condition selects. -/
theorem State.pushW_widthOf (s : State) (k : Bool) (v : Word) :
    s.pushW (widthOf k) v = if k then s.push8 (loByte v) else s.push16 v := by
  cases k <;> rfl

/-- R286: a pull at the width that a condition selects. -/
theorem State.pullW_widthOf (s : State) (k : Bool) :
    s.pullW (widthOf k) = if k then (zext16 s.pull8.1, s.pull8.2) else s.pull16 := by
  cases k <;> rfl

/-! ## The status byte -/

/-- R43: the encoded status as the sum of its flags, each at the weight of its bit. -/
theorem Flags.encode_eq_sum (p : Flags) :
    p.encode = BitVec.ofNat 8 (p.n.toNat * 128 + p.v.toNat * 64 + (p.e || p.m).toNat * 32 +
      (if p.e then p.b else p.x).toNat * 16 + p.d.toNat * 8 + p.i.toNat * 4 + p.z.toNat * 2 + p.c.toNat) := by
  rw [Flags.encode_eq_bits]
  simp only [Nat.bit_val]
  congr 1
  omega

/-- Settles O32: PHP pushes the encoded flags once B is set, a sum over the layout's bits; PLP is the record that the
statement gives, its flags the decoded byte. -/
theorem phpAndPlpMoveTheStatus : Obligations.PhpAndPlpMoveTheStatus := by
  refine ⟨fun s => ?php, fun s => ⟨rfl, exec_answers rfl (plp_eq 0x28#8 s)⟩⟩
  case php =>
    intro p byte t
    have hphp := php_eq 0x08#8 s
    have hbyte : p.encode = byte := p.encode_eq_sum
    rw [Flags.pushed_eq, hbyte] at hphp
    exact ⟨rfl, exec_answers rfl hphp⟩

/-! ## Pushed values -/

/-- R133: the target of a 16-bit displacement, modulo 2^16. -/
theorem State.rel16Target_eq_ofNat (s : State) (r : Word) :
    s.rel16Target r = BitVec.ofNat 16 (s.pc.toNat + 3 + r.toNat) := by
  simp only [BitVec.ofNat_add, BitVec.ofNat_toNat, BitVec.setWidth_eq]
  rfl

/-- Settles O34: PEA and PEI are the records that the statement gives; the value of PER in numbers. -/
theorem pushesOfEffectiveValues : Obligations.PushesOfEffectiveValues := by
  refine fun v r d s => ⟨List.forall_mem_singleton.mpr ?pea, List.forall_mem_singleton.mpr ?pei,
    List.forall_mem_singleton.mpr ?per⟩
  case pea => exact ⟨rfl, exec_answers rfl (pea_eq 0xF4#8 v s)⟩
  case pei => exact ⟨rfl, exec_answers rfl (pei_eq 0xD4#8 d s)⟩
  case per =>
    rw [← s.rel16Target_eq_ofNat r]
    exact ⟨rfl, exec_answers rfl (per_eq 0x62#8 r s)⟩

/-- Settles O31: A, X and Y are pushed at the width that M or X selects, the other registers at their only width. -/
theorem pushesOfRegisters : Obligations.PushesOfRegisters := by
  intro s pushed
  simp only [pushed, ← State.pushW_widthOf]
  exact ⟨rfl, rfl, rfl, rfl, rfl, rfl, exec_answers rfl (pushReg_eq 0x48#8 s.wA s.a s),
    exec_answers rfl (pushReg_eq 0xDA#8 s.wX s.x s), exec_answers rfl (pushReg_eq 0x5A#8 s.wX s.y s),
    exec_answers rfl (pushBank_eq 0x8B#8 s.dbr s), exec_answers rfl (pushBank_eq 0x4B#8 s.pbr s),
    exec_answers rfl (phd_eq 0x0B#8 s)⟩

/-- Settles O33: A, X and Y are pulled at the width that M or X selects, the other registers at their only width. -/
theorem pullsOfRegisters : Obligations.PullsOfRegisters := by
  intro s rA rX r8 r16
  have hA : s.pullW s.wA = rA := s.pullW_widthOf s.m8
  have hX : s.pullW s.wX = rX := s.pullW_widthOf s.x8
  rw [← hA, ← hX]
  exact ⟨rfl, rfl, rfl, rfl, rfl, exec_answers rfl (pla_eq 0x68#8 s), exec_answers rfl (plx_eq 0xFA#8 s),
    exec_answers rfl (ply_eq 0x7A#8 s), exec_answers rfl (plb_eq 0xAB#8 s), exec_answers rfl (pld_eq 0x2B#8 s)⟩

end Sys2Proof.Machine
end

section
/-! SUPPORT. The register transfers: width by the destination, 16 bits for D, S and the whole accumulator (R300 to
R313). -/

namespace Sys2Proof.Machine

/-- Settles O36: each runs `transferToS`, whose record re-homes the value in emulation mode. -/
theorem transfersToTheStackPointer : Obligations.TransfersToTheStackPointer := fun s =>
  ⟨rfl, rfl, exec_answers rfl (transferToS_eq 0x9A#8 s.x s), exec_answers rfl (transferToS_eq 0x1B#8 s.a s)⟩

/-- Settles O35: each runs the transfer to its destination, or XBA, and each of these is the record that the statement
gives. -/
theorem transfersMoveRegisters : Obligations.TransfersMoveRegisters := fun s =>
  ⟨rfl, exec_answers rfl (transferToX_eq 0xAA#8 s.a s), exec_answers rfl (transferToY_eq 0xA8#8 s.a s),
    exec_answers rfl (transferToA_eq 0x8A#8 s.x s), exec_answers rfl (transferToA_eq 0x98#8 s.y s),
    exec_answers rfl (transferToX_eq 0xBA#8 s.sp s), exec_answers rfl (transferToY_eq 0x9B#8 s.x s),
    exec_answers rfl (transferToX_eq 0xBB#8 s.y s), exec_answers rfl (tcd_eq 0x5B#8 s),
    exec_answers rfl (transferToC_eq 0x7B#8 s.dp s), exec_answers rfl (transferToC_eq 0x3B#8 s.sp s),
    exec_answers rfl (xba_eq 0xEB#8 s)⟩

end Sys2Proof.Machine
end

section
/-! SUPPORT. The flag and mode instructions: what the masks of REP and SEP reach, and XCE by the carry (R320 to
R329). -/

namespace Sys2Proof.Machine

/-- R45, R46: bits 5 and 4 of a mask, M and X, are masked off in emulation mode; every other bit stays. -/
theorem Flags.getLsbD_mask (p : Flags) (v : Byte) {k : Nat} (hk : k < 8) :
    (p.mask v).getLsbD k = if k = 5 ∨ k = 4 then !p.e && v.getLsbD k else v.getLsbD k := by
  have h0xCF : (0xCF#8).getLsbD k = !decide (k = 5 ∨ k = 4) := by decide +revert
  unfold Flags.mask
  cases p.e with
  | true => by_cases h : k = 5 ∨ k = 4 <;> simp [BitVec.getLsbD_and, h0xCF, h]
  | false => simp

/-- R45: `reset_bits` flag by flag. -/
theorem Flags.resetBits_eq (p : Flags) (v : Byte) :
    p.resetBits v =
      { p with n := p.n && !v.getLsbD 7, v := p.v && !v.getLsbD 6, m := p.m && !(!p.e && v.getLsbD 5),
               x := p.x && !(!p.e && v.getLsbD 4), d := p.d && !v.getLsbD 3, i := p.i && !v.getLsbD 2,
               z := p.z && !v.getLsbD 1, c := p.c && !v.getLsbD 0 } := by
  simp [Flags.resetBits, Flags.getLsbD_mask, -BitVec.getLsbD_eq_getElem]

/-- R46: `set_bits` flag by flag. -/
theorem Flags.setBits_eq (p : Flags) (v : Byte) :
    p.setBits v =
      { p with n := p.n || v.getLsbD 7, v := p.v || v.getLsbD 6, m := p.m || (!p.e && v.getLsbD 5),
               x := p.x || (!p.e && v.getLsbD 4), d := p.d || v.getLsbD 3, i := p.i || v.getLsbD 2,
               z := p.z || v.getLsbD 1, c := p.c || v.getLsbD 0 } := by
  simp [Flags.setBits, Flags.getLsbD_mask, -BitVec.getLsbD_eq_getElem]

/-- Settles O38: REP and SEP are the records that the statement gives, once their masks are read flag by flag. -/
theorem repAndSepWriteTheMaskedFlags : Obligations.RepAndSepWriteTheMaskedFlags := by
  refine fun v s => ⟨List.forall_mem_singleton.mpr ?rep, List.forall_mem_singleton.mpr ?sep⟩
  case rep =>
    have hrep := rep_eq 0xC2#8 v s
    rw [Flags.resetBits_eq] at hrep
    exact ⟨rfl, exec_answers rfl hrep⟩
  case sep =>
    have hsep := sep_eq 0xE2#8 v s
    rw [Flags.setBits_eq] at hsep
    exact ⟨rfl, exec_answers rfl hsep⟩

/-- Settles O37: seven run `flagInstr` on their flag, and NOP is its record. -/
theorem singleFlagInstructions : Obligations.SingleFlagInstructions := fun s =>
  ⟨rfl, exec_answers rfl (flagInstr_eq 0x18#8 _ s), exec_answers rfl (flagInstr_eq 0x38#8 _ s),
    exec_answers rfl (flagInstr_eq 0x58#8 _ s), exec_answers rfl (flagInstr_eq 0x78#8 _ s),
    exec_answers rfl (flagInstr_eq 0xD8#8 _ s), exec_answers rfl (flagInstr_eq 0xF8#8 _ s),
    exec_answers rfl (flagInstr_eq 0xB8#8 _ s), exec_answers rfl (nop_eq 0xEA#8 s)⟩

/-- Settles O39: the two cases of XCE exclude each other by the carry. -/
theorem xceExchangesCarryAndEmulation : Obligations.XceExchangesCarryAndEmulation := by
  intro s
  rcases xce_cases 0xFB#8 s with ⟨hc, hxce⟩ | ⟨hc, hxce⟩
  · exact ⟨rfl, fun _ => exec_answers rfl hxce, fun h => absurd (hc.symm.trans h) (by decide)⟩
  · exact ⟨rfl, fun h => absurd (hc.symm.trans h) (by decide), fun _ => exec_answers rfl hxce⟩

end Sys2Proof.Machine
end

section
/-! SUPPORT. Interrupt entry and return: the entry's pushes address by address, what a sequence of pushes leaves on the
stack for the pulls, and the instructions that enter, return, wait and stop (R340 to R345, R411 to R414). -/

namespace Sys2Proof.Machine

/-! ## Entry -/

/-- R413: the causes that set B in the stacked flags are the software interrupts. -/
theorem Cause.breakBit_eq (k : Cause) : k.breakBit = (k == Cause.brk || k == Cause.cop) := by
  cases k <;> rfl

/-- R90: the byte after `k` pushed ones is written at the next stack address. -/
theorem Pushed.push8_bus {s u : State} {k : Nat} (h : Pushed s k u) (v : Byte) :
    (u.push8 v).bus = busWrite8 s.plat ⟨0x00#8, s.spAfter k⟩ v u.bus := by
  rw [State.push8_bus, h.plat, h.sp]

/-- R411: what an entry pushes before the return offset: the bank in native mode, nothing in emulation mode. -/
def State.stackedBank (s : State) : List Byte := if s.p.e then [] else [s.pbr]

theorem State.stackedBank_length_le (s : State) : s.stackedBank.length ≤ 1 := by
  unfold State.stackedBank; split <;> simp

/-- R411: the state once an entry has pushed the bank. -/
def State.afterBank (s : State) : State := if s.p.e then s else s.push8 s.pbr

theorem State.pushed_afterBank (s : State) : Pushed s s.stackedBank.length s.afterBank := by
  unfold State.stackedBank State.afterBank
  split
  · exact Pushed.zero s
  · exact (Pushed.zero s).push8 s.pbr

/-- R411: where the pushes of an entry leave S, and where they write the return offset and the flags. -/
theorem State.enterPushes_sp_bus (s : State) (k : Cause) (ret : Word) :
    (s.enterPushes k ret).sp = s.spAfter (s.stackedBank.length + 3) ∧
      (s.enterPushes k ret).bus =
        busWrite8 s.plat ⟨0x00#8, s.spAfter (s.stackedBank.length + 2)⟩ (s.p.entering k).encode
          (busWrite8 s.plat ⟨0x00#8, s.spAfter (s.stackedBank.length + 1)⟩ (loByte ret)
            (busWrite8 s.plat ⟨0x00#8, s.spAfter s.stackedBank.length⟩ (hiByte ret) s.afterBank.bus)) := by
  have hbank := s.pushed_afterBank
  have hhi := hbank.push8 (hiByte ret)
  have hlo := hhi.push8 (loByte ret)
  rw [State.enterPushes_eq, ← hbank.push8_bus, ← hhi.push8_bus, ← hlo.push8_bus]
  exact ⟨(hlo.push8 (s.p.entering k).encode).sp, rfl⟩

/-- Settles O11: the pushes of an entry address by address, the flags lying two bytes below the bank's. -/
theorem interruptEntryFrame : Obligations.InterruptEntryFrame := by
  intro k ret s w q flagsAt b0 b1 b2 b3 v
  have hq : s.p.entering k = q := by rw [Flags.entering_eq, Cause.breakBit_eq]
  have hflagsAt : flagsAt = s.stackedBank.length + 2 := by
    simp only [flagsAt, State.stackedBank]; split <;> rfl
  have hb0 : s.afterBank.bus = b0 := by
    simp only [b0, State.afterBank]; split <;> rfl
  obtain ⟨hsp, hbus⟩ := s.enterPushes_sp_bus k ret
  have hb3 : (s.enterPushes k ret).bus = b3 := by
    simp only [b3, b2, b1, hflagsAt, ← hb0, ← hq]
    exact hbus
  rw [State.enter_eq, hq, hb3, hsp, hflagsAt]

/-! ## The bytes on the stack -/

/-- Memory holds the bytes `bs` where pushes from `s` put them, the last pushed first. -/
def State.Holds (s : State) (m : Memory) : List Byte → Prop
  | [] => True
  | v :: bs => Memory.read m (⟨0x00#8, s.spAfter bs.length⟩ : Addr).asInteger = v ∧ s.Holds m bs

/-- Whether the bytes are held depends on their addresses alone. -/
theorem State.Holds.congr {s : State} {m m' : Memory} {bs : List Byte} (h : s.Holds m bs)
    (hm : ∀ j, j < bs.length → Memory.read m' (⟨0x00#8, s.spAfter j⟩ : Addr).asInteger =
      Memory.read m (⟨0x00#8, s.spAfter j⟩ : Addr).asInteger) : s.Holds m' bs := by
  induction bs with
  | nil => trivial
  | cons v bs ih =>
    obtain ⟨hv, hbs⟩ := h
    exact ⟨(hm _ (Nat.lt_succ_self _)).trans hv, ih hbs fun j hj => hm j (Nat.lt_succ_of_lt hj)⟩

/-- In `t` the stack of `s` has the bytes `bs` on it, the last pushed first, and S stands where their pushes leave
it. -/
structure Stacked (s : State) (bs : List Byte) (t : State) : Prop where
  sp : t.sp = s.spAfter bs.length
  e : t.p.e = s.p.e
  plat : t.plat = s.plat
  wf : t.MemInv
  holds : s.Holds t.bus.mem bs

theorem Stacked.nil {s : State} (hm : s.MemInv) : Stacked s [] s := ⟨rfl, rfl, rfl, hm, trivial⟩

/-- What is on the stack depends on S, the mode, the platform and memory alone. -/
theorem Stacked.congr {s t t' : State} {bs : List Byte} (h : Stacked s bs t) (hs : t'.sp = t.sp) (he : t'.p.e = t.p.e)
    (hp : t'.plat = t.plat) (hm : t'.bus.mem = t.bus.mem) : Stacked s bs t' :=
  ⟨hs.trans h.sp, he.trans h.e, hp.trans h.plat, (congrArg Memory.wf hm).trans h.wf, hm ▸ h.holds⟩

/-- R90: a push puts its byte on the stack, if that is memory, and keeps the bytes below it. -/
theorem Stacked.push8 {s t : State} {bs : List Byte} (h : Stacked s bs t) (v : Byte) (hp : s.PageInv)
    (hr : InRegion s.plat ⟨0x00#8, s.spAfter bs.length⟩) (hl : bs.length < 256) : Stacked s (v :: bs) (t.push8 v) where
  sp := State.decS_congr h.e h.plat h.sp
  e := h.e
  plat := h.plat
  wf := State.push8_memInv v h.wf
  holds := by
    rw [← h.sp, ← h.plat] at hr
    refine ⟨h.sp ▸ State.push8_same v h.wf hr, h.holds.congr fun j hj => ?_⟩
    refine State.push8_other t v ?_
    rw [h.sp]
    exact State.stackAddr_ne hp hj hl

/-- R91: a pull takes the last pushed byte off the stack, if that is memory. -/
theorem Stacked.pull8 {s t : State} {v : Byte} {bs : List Byte} (h : Stacked s (v :: bs) t) (hp : s.PageInv)
    (hr : InRegion s.plat ⟨0x00#8, s.spAfter bs.length⟩) :
    t.pull8 = (v, { t with sp := s.spAfter bs.length }) ∧ Stacked s bs { t with sp := s.spAfter bs.length } :=
  ⟨State.pull8_at (State.incS_spAfter hp h.e h.plat h.sp) (h.plat ▸ hr) h.holds.1,
   ⟨rfl, h.e, h.plat, h.wf, h.holds.2⟩⟩

/-- R92: a pull of two bytes takes the last pushed word. -/
theorem Stacked.pull16 {s t : State} {v : Word} {bs : List Byte} (h : Stacked s (loByte v :: hiByte v :: bs) t)
    (hp : s.PageInv) (hlo : InRegion s.plat ⟨0x00#8, s.spAfter (bs.length + 1)⟩)
    (hhi : InRegion s.plat ⟨0x00#8, s.spAfter bs.length⟩) :
    t.pull16 = (v, { t with sp := s.spAfter bs.length }) ∧ Stacked s bs { t with sp := s.spAfter bs.length } := by
  obtain ⟨elo, h⟩ := h.pull8 hp hlo
  obtain ⟨ehi, h⟩ := h.pull8 hp hhi
  refine ⟨?_, h⟩
  rw [State.pull16, elo]
  dsimp only
  rw [ehi, joinBytes_hi_lo]

/-! ## Return -/

theorem State.stacked_afterBank {s : State} (hm : s.MemInv) (hp : s.PageInv)
    (hr : InRegion s.plat ⟨0x00#8, s.spAfter 0⟩) : Stacked s s.stackedBank s.afterBank := by
  unfold State.stackedBank State.afterBank
  split
  · exact Stacked.nil hm
  · exact (Stacked.nil hm).push8 s.pbr hp hr (by decide)

/-- R411: what an entry leaves on the stack; the read of the vector leaves memory. -/
theorem State.enter_stacked {s : State} (k : Cause) (ret : Word) (hm : s.MemInv) (hp : s.PageInv)
    (hr : ∀ j, j < s.stackedBank.length + 3 → InRegion s.plat ⟨0x00#8, s.spAfter j⟩) :
    Stacked s ((s.p.entering k).encode :: loByte ret :: hiByte ret :: s.stackedBank) (s.enter k ret) := by
  have hl := s.stackedBank_length_le
  have hbank := State.stacked_afterBank hm hp (hr 0 (by omega))
  have hhi := hbank.push8 (hiByte ret) hp (hr _ (by omega)) (by omega)
  have hlo := hhi.push8 (loByte ret) hp (hr _ (by rw [List.length_cons]; omega)) (by rw [List.length_cons]; omega)
  have hflags := hlo.push8 (s.p.entering k).encode hp (hr _ (Nat.lt_succ_self _))
    (by rw [List.length_cons, List.length_cons]; omega)
  refine hflags.congr ?_ ?_ ?_ (s.enter_mem k ret)
  · rw [State.enter_eq, State.enterPushes_eq]; rfl
  · rw [State.enter_eq, Flags.entering_eq]; exact hflags.e.symm
  · rw [State.enter_eq]; exact hflags.plat.symm

/-- R44, R411: decoding the stacked flags undoes what the entry did to I and the D flag. -/
theorem State.enter_decode (s : State) (k : Cause) (ret : Word) :
    (s.enter k ret).p.decode (s.p.entering k).encode = s.p.entering k := by
  rw [State.enter_eq]
  exact (s.p.entering k).decode_encode

/-- R44, R50: decoding the stacked flags leaves an index register that meets R50. -/
theorem narrowed_stacked {s : State} (k : Cause) {v : Word} (h : s.x8 = true → hiByte v = 0x00#8) :
    narrowed s.p.e ((s.p.entering k).encode.getLsbD 4) v = v := by
  obtain ⟨-, -, -, hbit, -⟩ := (s.p.entering k).getLsbD_encode
  rw [hbit, Flags.entering_eq]
  dsimp only
  cases he : s.p.e with
  | true => rfl
  | false =>
    cases hx : s.p.x with
    | false => rfl
    | true => exact zext16_loByte_of_hi_zero (h (by simp [State.x8, Flags.x8, hx]))

/-- R342: what the return pulls after an entry. -/
theorem Stacked.returnFromInterrupt {s t : State} {f : Byte} {ret : Word}
    (h : Stacked s (f :: loByte ret :: hiByte ret :: s.stackedBank) t) (hp : s.PageInv)
    (hr : ∀ j, j < s.stackedBank.length + 3 → InRegion s.plat ⟨0x00#8, s.spAfter j⟩) :
    t.returnFromInterrupt =
      { t with p := t.p.decode f, x := narrowed s.p.e (f.getLsbD 4) t.x, y := narrowed s.p.e (f.getLsbD 4) t.y,
               pc := ret, pbr := if s.p.e then t.pbr else s.pbr, sp := s.sp } := by
  obtain ⟨hf, hbelow⟩ := h.pull8 hp (hr _ (Nat.lt_succ_self _))
  obtain ⟨ho, hbelow⟩ := hbelow.pull16 hp (hr _ (by omega)) (hr _ (by omega))
  have hoffset : t.pull24.2 = { t with sp := s.spAfter s.stackedBank.length } := by
    show t.pull8.2.pull16.2 = _
    rw [hf]; dsimp only; rw [ho]
  rw [State.returnFromInterrupt_eq, hoffset, hf]
  dsimp only
  rw [ho, h.e]
  cases he : s.p.e with
  | true =>
    have hbank : s.stackedBank = [] := if_pos he
    rw [hbank]; rfl
  | false =>
    have hbank : s.stackedBank = [s.pbr] := if_neg (by simp [he])
    rw [hbank] at hbelow hr ⊢
    obtain ⟨hb, -⟩ := hbelow.pull8 hp (hr 0 (Nat.succ_pos _))
    simp only [hb]
    rfl

/-- Settles O12: the return pulls the frame off the stack, and decoding it undoes what the entry did to the flags. -/
theorem rtiUndoesEntry : Obligations.RtiUndoesEntry := by
  intro k ret s hm hi hr
  obtain ⟨hemulation, hindex⟩ := hi
  have hp := State.pageInv_of_emulationInv hemulation
  have hr' : ∀ j, j < s.stackedBank.length + 3 → InRegion s.plat ⟨0x00#8, s.spAfter j⟩ := fun j hj =>
    hr _ (State.mem_pushAddrs (hj.trans_le (Nat.add_le_add_right s.stackedBank_length_le 3)))
  have hreturn := (State.enter_stacked k ret hm hp hr').returnFromInterrupt hp hr'
  have hx : (s.enter k ret).x = s.x := by rw [State.enter_eq]
  have hy : (s.enter k ret).y = s.y := by rw [State.enter_eq]
  rw [hreturn, State.enter_decode, hx, hy, narrowed_stacked k fun h => (hindex h).1,
    narrowed_stacked k fun h => (hindex h).2, Flags.entering_eq, Cause.breakBit_eq]
  simp only [State.enter_eq]

/-! ## Instructions -/

/-- R340, R341, R413: a software interrupt of a cause that sets B. -/
theorem softwareInterrupt_eq_of_breakBit (op : Byte) {k : Cause} (hk : k.breakBit = true) (s : State) :
    softwareInterrupt op k s =
      { s with p := { s.p with i := true, d := false, b := s.p.e || s.p.b }, pbr := 0x00#8,
               sp := (s.enter k (s.pc + 2#16)).sp, pc := (s.enter k (s.pc + 2#16)).pc,
               bus := (s.enter k (s.pc + 2#16)).bus,
               cyc := s.cyc + BitVec.ofNat 64 (s.cycles op (baseCycles op + nativePenalty s.p.e)) } := by
  have hb : (if s.p.e = true then true else s.p.b) = (s.p.e || s.p.b) := by cases s.p.e <;> rfl
  rw [softwareInterrupt_eq, Flags.entering_eq, hk, hb]

/-- R342: RTI in the mode that is current, with the bank pulled in native mode alone. -/
theorem rti_eq_pulls (op : Byte) (s : State) :
    rti op s =
      { s with p := s.p.decode s.pull8.1, x := narrowed s.p.e (s.pull8.1.getLsbD 4) s.x,
               y := narrowed s.p.e (s.pull8.1.getLsbD 4) s.y, pc := s.pull8.2.pull16.1,
               pbr := if s.p.e then s.pbr else s.pull24.2.pull8.1,
               sp := if s.p.e then s.pull24.2.sp else s.pull24.2.pull8.2.sp,
               bus := if s.p.e then s.pull24.2.bus else s.pull24.2.pull8.2.bus,
               cyc := s.cyc + BitVec.ofNat 64 (s.cycles op (baseCycles op + nativePenalty s.p.e)) } := by
  rw [rti_eq, State.returnFromInterrupt_eq]

/-- Settles O40: BRK and COP are their entry past the signature byte; RTI's flags are the decoded byte. -/
theorem softwareInterruptsAndReturn : Obligations.SoftwareInterruptsAndReturn := by
  refine ⟨fun sig s => ⟨List.forall_mem_singleton.mpr ?brk, List.forall_mem_singleton.mpr ?cop⟩,
    fun s => ⟨rfl, exec_answers rfl (rti_eq_pulls 0x40#8 s)⟩⟩
  case brk => exact ⟨rfl, exec_answers rfl (softwareInterrupt_eq_of_breakBit 0x00#8 (k := .brk) rfl s)⟩
  case cop => exact ⟨rfl, exec_answers rfl (softwareInterrupt_eq_of_breakBit 0x02#8 (k := .cop) rfl s)⟩

/-- Settles O41: WAI and STP run `stopIn` with their run state, and WDM is its record. -/
theorem waitStopAndReserved : Obligations.WaitStopAndReserved := fun v s =>
  ⟨rfl, rfl, exec_answers rfl (stopIn_eq 0xCB#8 .waiting s), exec_answers rfl (stopIn_eq 0xDB#8 .stopped s),
    List.forall_mem_singleton.mpr ⟨rfl, exec_answers (i := .wdm v) rfl (wdm_eq 0x42#8 s)⟩⟩

end Sys2Proof.Machine
end

section
/-! SUPPORT. The block moves: the loop's values at the end of the block (R360 to R362). -/

namespace Sys2Proof.Machine

/-- R362: counting A down once a byte, for A + 1 bytes, leaves 0xFFFF. -/
theorem blockLoop_blockCount_a (up : Bool) (dst src : Byte) (s : State) :
    (blockLoop up dst src (blockCount s) s).a = 0xFFFF#16 := by
  have hlt := s.a.isLt
  rw [blockLoop_a, blockCount]
  apply BitVec.eq_of_toNat_eq
  simp only [BitVec.toNat_sub, BitVec.toNat_ofNat]
  omega

/-- R362, R475: a block move, with the block's addresses and end values. -/
theorem blockMove_eq_copies (op : Byte) (up : Bool) (dst src : Byte) (s : State) :
    blockMove op up dst src s =
      { s with a := 0xFFFF#16, x := indexAt up s.wX s.x (blockCount s), y := indexAt up s.wX s.y (blockCount s),
               dbr := dst, bus := (List.range (blockCount s)).foldl (copyByte up dst src s) s.bus, pc := s.pc + 3#16,
               cyc := s.cyc + BitVec.ofNat 64 (s.cycles op (7 * blockCount s)) } := by
  obtain ⟨hx, hy⟩ := blockLoop_xy up dst src s.a.toNat s
  rw [blockMove_eq, blockLoop_blockCount_a, blockLoop_bus, blockCount, hx, hy]

/-- Settles O42: the two moves are one record, up for MVN and down for MVP. -/
theorem blockMovesCopyTheBlock : Obligations.BlockMovesCopyTheBlock := fun dst src s =>
  ⟨List.forall_mem_singleton.mpr ⟨rfl, exec_answers rfl (blockMove_eq_copies 0x54#8 true dst src s)⟩,
   List.forall_mem_singleton.mpr ⟨rfl, exec_answers rfl (blockMove_eq_copies 0x44#8 false dst src s)⟩⟩

end Sys2Proof.Machine
end

section
/-! SUPPORT. The instruction boundary: reset, the steps that do nothing, and the priority of the interrupts (R402 to
R412). -/

namespace Sys2Proof.Machine

/-! ## Before the interrupt check -/

/-- R402: RES asserted holds the core. -/
theorem State.boundary_of_res {s : State} (h : s.pins.res = true) : s.boundary = .done { s with run := .resetHeld } :=
  if_pos h

/-- R402, R450: with RES deasserted, a reset that is held or pending runs the reset sequence. -/
theorem State.boundary_of_reset {s : State} (hres : s.pins.res = false)
    (h : s.run = .resetHeld ∨ s.resetPending = true) : s.boundary = .done s.resetSequence := by
  simp only [State.boundary, hres, Bool.false_eq_true, if_false, if_pos h]

/-- R403: a stopped core stays as it is. -/
theorem State.boundary_of_stopped {s : State} (hres : s.pins.res = false) (hpending : s.resetPending = false)
    (hrun : s.run = .stopped) : s.boundary = .done s := by
  simp [State.boundary, hres, hpending, hrun]

/-- R405: a core that is not ready stays as it is. -/
theorem State.boundary_of_not_ready {s : State} (hres : s.pins.res = false) (hpending : s.resetPending = false)
    (hrun : s.run = .running ∨ s.run = .waiting) (hrdy : s.pins.rdy = false) : s.boundary = .done s := by
  rcases hrun with h | h <;> simp [State.boundary, hres, hpending, h, hrdy]

/-- R404: a waiting core that nothing wakes stays as it is. -/
theorem State.boundary_of_waiting {s : State} (hres : s.pins.res = false) (hpending : s.resetPending = false)
    (hrun : s.run = .waiting) (hwakes : s.wakes = false) : s.boundary = .done s := by
  cases hrdy : s.pins.rdy with
  | false => exact State.boundary_of_not_ready hres hpending (.inr hrun) hrdy
  | true => simp [State.boundary, hres, hpending, hrun, hrdy, hwakes]

/-- R404: a waiting core that something wakes goes on to the interrupt check as a running one. -/
theorem State.boundary_of_woken {s : State} (hres : s.pins.res = false) (hpending : s.resetPending = false)
    (hrun : s.run = .waiting) (hrdy : s.pins.rdy = true) (hwakes : s.wakes = true) :
    s.boundary = State.interruptCheck { s with run := .running } := by
  simp [State.boundary, hres, hpending, hrun, hrdy, hwakes]

/-- R406: a running, ready core goes on to the interrupt check. -/
theorem State.boundary_of_running {s : State} (hres : s.pins.res = false) (hpending : s.resetPending = false)
    (hrun : s.run = .running) (hrdy : s.pins.rdy = true) : s.boundary = s.interruptCheck := by
  simp [State.boundary, hres, hpending, hrun, hrdy]

/-- Settles O8: the boundary is the reset sequence, which is the record that the statement gives. -/
theorem resetStep : Obligations.ResetStep := fun _ hres h =>
  step_of_boundary_done (State.boundary_of_reset hres h)

/-- Settles O9: each clause is one branch of the boundary; a woken core takes that of a running one. -/
theorem stepsThatDoNothing : Obligations.StepsThatDoNothing := by
  refine fun s => ⟨fun hres => step_of_boundary_done (State.boundary_of_res hres), fun hres hpending =>
    ⟨fun hrun => step_of_boundary_done (State.boundary_of_stopped hres hpending hrun),
     fun hrun hrdy => step_of_boundary_done (State.boundary_of_not_ready hres hpending hrun hrdy),
     fun hrun hrdy => ⟨fun hwakes => step_of_boundary_done (State.boundary_of_waiting hres hpending hrun hwakes),
       fun hwakes => ?woken⟩⟩⟩
  case woken =>
    have hwoken := State.boundary_of_woken hres hpending hrun hrdy hwakes
    have hrunning := State.boundary_of_running (s := { s with run := .running }) hres hpending rfl hrdy
    rw [step, step, hwoken, hrunning]

/-! ## The interrupt check -/

/-- R411: an entry leaves the cycle counter. -/
@[simp] theorem State.enter_cyc (s : State) (k : Cause) (ret : Word) : (s.enter k ret).cyc = s.cyc := by
  rw [State.enter_eq]

/-- R412, R477: an entry step adds INT_ENTRY_CYCLES of the mode before to what the entry does. -/
theorem State.interruptStep_eq (k : Cause) (s : State) :
    s.interruptStep k = { s.enter k s.pc with cyc := s.cyc + BitVec.ofNat 64 s.intEntryCycles } := by
  unfold State.interruptStep
  dsimp only
  rw [State.enter_cyc]

/-- R410: ABORT comes first. -/
theorem State.interruptCheck_abort {s : State} (h : s.abortPending = true) :
    s.interruptCheck = .done (State.interruptStep .abort { s with abortPending := false }) :=
  if_pos h

/-- R410: without ABORT, NMI comes before IRQ. -/
theorem State.interruptCheck_nmi {s : State} (habort : s.abortPending = false) (hnmi : s.nmiPending = true) :
    s.interruptCheck = .done (State.interruptStep .nmi { s with nmiPending := false }) := by
  simp [State.interruptCheck, habort, hnmi]

/-- R410: without either, IRQ is entered where I is clear. -/
theorem State.interruptCheck_irq {s : State} (habort : s.abortPending = false) (hnmi : s.nmiPending = false)
    (hirq : s.pins.irq = true) (hi : s.p.i = false) : s.interruptCheck = .done (s.interruptStep .irq) := by
  simp [State.interruptCheck, habort, hnmi, hirq, hi]

/-- Settles O10: the check of a running core takes the first cause in order; with IRQ masked the core is `Ready`. -/
theorem interruptPriority : Obligations.InterruptPriority := by
  intro s hres hpending hrun hrdy c
  have hb := State.boundary_of_running hres hpending hrun hrdy
  refine ⟨fun habort => ?abort, fun habort hnmi => ?nmi, fun habort hnmi hirq hi => ?irq,
    fun habort hnmi _ hi hu => step_ready ⟨hres, hpending, hrun, hrdy, habort, hnmi, .inr hi⟩ hu⟩
  case abort => rw [step_of_boundary_done (hb.trans (State.interruptCheck_abort habort)), State.interruptStep_eq]; rfl
  case nmi => rw [step_of_boundary_done (hb.trans (State.interruptCheck_nmi habort hnmi)), State.interruptStep_eq]; rfl
  case irq =>
    rw [step_of_boundary_done (hb.trans (State.interruptCheck_irq habort hnmi hirq hi)), State.interruptStep_eq]; rfl

end Sys2Proof.Machine
end

section
/-! SUPPORT. The cycles of every instruction: the opcodes that each penalty of R472 is for, the default cost that they
give, and the forms of the parameter CYCLES (R470 to R476). -/

namespace Sys2Proof.Machine

/-! ## The default cost -/

/-- R472 item 1: the opcodes that pay for a 16-bit accumulator. -/
abbrev PaysAccumulator (op : Nat) : Prop :=
  op % 32 ∈ [1, 3, 5, 7, 9, 13, 15, 17, 18, 19, 21, 23, 25, 29, 31] ∨
    op ∈ [0x24, 0x2C, 0x34, 0x3C, 0x64, 0x74, 0x9C, 0x9E, 0x04, 0x0C, 0x14, 0x1C, 0x06, 0x0E, 0x16, 0x1E, 0x26, 0x2E,
          0x36, 0x3E, 0x46, 0x4E, 0x56, 0x5E, 0x66, 0x6E, 0x76, 0x7E, 0xC6, 0xCE, 0xD6, 0xDE, 0xE6, 0xEE, 0xF6, 0xFE,
          0x48, 0x68]

/-- R472 item 1: the opcodes that pay for 16-bit index registers. -/
abbrev PaysIndex (op : Nat) : Prop :=
  op ∈ [0xA2, 0xA6, 0xAE, 0xB6, 0xBE, 0xA0, 0xA4, 0xAC, 0xB4, 0xBC, 0x86, 0x8E, 0x96, 0x84, 0x8C, 0x94, 0xE0, 0xE4,
        0xEC, 0xC0, 0xC4, 0xCC, 0xDA, 0x5A, 0xFA, 0x7A]

/-- R472 item 3: the opcodes that pay for an indexed read of another page. -/
abbrev PaysPage (op : Nat) : Prop := (op % 32 ∈ [0x11, 0x19, 0x1D] ∧ op / 32 ≠ 4) ∨ op ∈ [0x3C, 0xBC, 0xBE]

/-- R472 item 4: the opcodes that pay for an interrupt frame of native mode. -/
abbrev PaysFrame (op : Nat) : Prop := op ∈ [0x00, 0x02, 0x40]

/-- R475: the opcodes that pay for each byte moved. -/
abbrev PaysBytes (op : Nat) : Prop := op ∈ [0x44, 0x54]

/-- R471, R472, R475: the default cycles of an instruction that is no short branch, by its opcode and its mode. -/
def defaultCycles (op : Byte) (m : Mode) (s : State) : Nat :=
  if PaysBytes op.toNat then 7 * (s.a.toNat + 1)
  else baseCycles op +
    (if (s.m8 = false ∧ PaysAccumulator op.toNat) ∨ (s.x8 = false ∧ PaysIndex op.toNat) then 1 else 0) +
    (if loByte s.dp ≠ 0x00#8 ∧ m.isDirectPage = true then 1 else 0) +
    (if PaysPage op.toNat ∧ (resolve m s).crossed = true then 1 else 0) +
    (if s.p.e = false ∧ PaysFrame op.toNat then 1 else 0)

/-- Which penalties an opcode pays. -/
structure Penalties where
  bytes : Bool := false
  accumulator : Bool := false
  index : Bool := false
  page : Bool := false
  frame : Bool := false

/-- The penalties of R472 and R475 that an opcode pays. -/
def penaltiesAt (op : Byte) : Penalties where
  bytes := PaysBytes op.toNat
  accumulator := PaysAccumulator op.toNat
  index := PaysIndex op.toNat
  page := PaysPage op.toNat
  frame := PaysFrame op.toNat

/-- R472 item 1: what a 16-bit width in force costs an opcode that pays for the accumulator or for the index
registers. -/
def widthCost (accumulator index : Bool) (s : State) : Nat :=
  if (s.m8 = false ∧ accumulator = true) ∨ (s.x8 = false ∧ index = true) then 1 else 0

theorem widthCost_none (s : State) : widthCost false false s = 0 := by simp [widthCost]

theorem widthCost_accumulator (s : State) : widthCost true false s = widthPenalty s.wA := by
  unfold State.wA
  cases h : s.m8 <;> simp [widthCost, widthPenalty, h]

theorem widthCost_index (s : State) : widthCost false true s = widthPenalty s.wX := by
  unfold State.wX
  cases h : s.x8 <;> simp [widthCost, widthPenalty, h]

/-- R472 item 4: native mode is charged at the opcodes that pay for it. -/
theorem nativePenalty_or (e : Bool) (p : Prop) [Decidable p] :
    nativePenalty (e || !decide p) = if e = false ∧ p then 1 else 0 := by
  by_cases h : p <;> cases e <;> simp [nativePenalty, h]

/-- R472: the default of an opcode that does not pay by the byte, from its penalties. -/
theorem defaultCycles_of_penalties {op : Byte} {a x g n : Bool} (m : Mode) (s : State)
    (h : penaltiesAt op = { accumulator := a, index := x, page := g, frame := n }) :
    defaultCycles op m s = baseCycles op + widthCost a x s + dpPenalty m s.dp +
      pagePenalty (g && (resolve m s).crossed) + nativePenalty (s.p.e || !n) := by
  obtain ⟨hb, ha, hx, hg, hn⟩ := Penalties.mk.inj h
  rw [defaultCycles, if_neg (of_decide_eq_false hb), ← ha, ← hx, ← hg, ← hn, nativePenalty_or]
  simp only [widthCost, dpPenalty, pagePenalty, decide_eq_true_eq, Bool.and_eq_true, bne_iff_ne, and_comm]

/-- R472 item 2: the modes outside the direct page pay nothing for D. -/
theorem dpPenalty_of_not_directPage {m : Mode} (hm : m.isDirectPage = false) (dp : Word) : dpPenalty m dp = 0 := by
  rw [dpPenalty, hm]; rfl

/-- R156: the modes whose reads pay the page penalty. -/
def isPaged : Mode → Bool
  | .absX _ | .absY _ | .dpIndY _ => true
  | _ => false

/-- R156, R472 item 3: a load crosses a page where its mode pays for it and the resolved address does. -/
theorem load_crossed (m : Mode) (w : Width) (s : State) :
    (load m w s).crossed = (isPaged m && (resolve m s).crossed) := by
  cases m <;> rfl

/-! ## The default cost by the shape of an instruction -/

section

variable {op : Byte} {m : Mode} {s : State} {w : Width} {a x : Bool}

/-- R472: what a read costs at the width that its opcode pays for. -/
theorem readCost_eq_default (hw : widthCost a x s = widthPenalty w)
    (h : penaltiesAt op = { accumulator := a, index := x, page := isPaged m }) :
    baseCycles op + widthPenalty w + dpPenalty m s.dp + pagePenalty (load m w s).crossed = defaultCycles op m s := by
  rw [defaultCycles_of_penalties m s h, load_crossed, hw]
  simp [nativePenalty]

/-- R472: what a store or a read-modify-write on memory costs at the width that its opcode pays for. -/
theorem writeCost_eq_default (hw : widthCost a x s = widthPenalty w)
    (h : penaltiesAt op = { accumulator := a, index := x }) :
    baseCycles op + widthPenalty w + dpPenalty m s.dp = defaultCycles op m s := by
  rw [defaultCycles_of_penalties m s h, hw]
  simp [nativePenalty, pagePenalty]

/-- R472: what a push or a pull costs at the width that its opcode pays for. -/
theorem stackCost_eq_default (hw : widthCost a x s = widthPenalty w)
    (h : penaltiesAt op = { accumulator := a, index := x }) (hm : m.isDirectPage = false) :
    baseCycles op + widthPenalty w = defaultCycles op m s := by
  rw [← writeCost_eq_default hw h, dpPenalty_of_not_directPage hm, Nat.add_zero]

/-- R472 item 2: what PEI costs, whose only penalty is that of D. -/
theorem directPageCost_eq_default (h : penaltiesAt op = {}) :
    baseCycles op + dpPenalty m s.dp = defaultCycles op m s := by
  rw [defaultCycles_of_penalties m s h, widthCost_none]
  simp [nativePenalty, pagePenalty]

/-- R471: what an instruction costs that pays no penalty. -/
theorem baseCost_eq_default (h : penaltiesAt op = {}) (hm : m.isDirectPage = false) :
    baseCycles op = defaultCycles op m s := by
  rw [← directPageCost_eq_default h, dpPenalty_of_not_directPage hm, Nat.add_zero]

/-- R472 item 4: what BRK, COP and RTI cost. -/
theorem frameCost_eq_default (h : penaltiesAt op = { frame := true }) (hm : m.isDirectPage = false) :
    baseCycles op + nativePenalty s.p.e = defaultCycles op m s := by
  rw [defaultCycles_of_penalties m s h, dpPenalty_of_not_directPage hm, widthCost_none]
  simp [pagePenalty]

/-- R475: what a block move costs. -/
theorem moveCost_eq_default (h : penaltiesAt op = { bytes := true }) : 7 * blockCount s = defaultCycles op m s :=
  (if_pos (of_decide_eq_true (Penalties.mk.inj h).1)).symm

end

/-! ## Instructions -/

/-- R470: an instruction that answers `u` with CYCLES of the default added answers a state so. -/
theorem exec_charges {i : Instr} {s u : State} {n : Nat} (hexec : exec i s = .next u)
    (hcyc : u.cyc = s.cyc + BitVec.ofNat 64 (s.cycles i.opcode n)) (hn : n = defaultCycles i.opcode i.mode s) :
    ∃ t, exec i s = .next t ∧
      t.cyc = s.cyc + BitVec.ofNat 64 (s.cycles i.opcode (defaultCycles i.opcode i.mode s)) :=
  ⟨u, hexec, hn ▸ hcyc⟩

/-- R329: XCE adds its cycles whatever the carry. -/
theorem xce_cyc (op : Byte) (s : State) :
    (xce op s).cyc = s.cyc + BitVec.ofNat 64 (s.cycles op (baseCycles op)) := by
  rcases xce_cases op s with ⟨-, e⟩ | ⟨-, e⟩ <;> rw [e]

/-- R471 to R475: every instruction but the short branches adds CYCLES of its default. Those not named pay no
penalty. -/
theorem exec_cyc (i : Instr) (s : State)
    (hbranch : i.opcode.toNat ∉ [0x10, 0x30, 0x50, 0x70, 0x80, 0x90, 0xB0, 0xD0, 0xF0]) :
    ∃ t, exec i s = .next t ∧
      t.cyc = s.cyc + BitVec.ofNat 64 (s.cycles i.opcode (defaultCycles i.opcode i.mode s)) := by
  cases i with
  | ldaDpXInd | ldaSr | ldaDp | ldaDpIndL | ldaImm | ldaAbs | ldaAbsL | ldaDpIndY | ldaDpInd | ldaSrIndY | ldaDpX |
  ldaDpIndLY | ldaAbsY | ldaAbsX | ldaAbsLX | andDpXInd | andSr | andDp | andDpIndL | andImm | andAbs | andAbsL |
  andDpIndY | andDpInd | andSrIndY | andDpX | andDpIndLY | andAbsY | andAbsX | andAbsLX | oraDpXInd | oraSr | oraDp |
  oraDpIndL | oraImm | oraAbs | oraAbsL | oraDpIndY | oraDpInd | oraSrIndY | oraDpX | oraDpIndLY | oraAbsY | oraAbsX |
  oraAbsLX | eorDpXInd | eorSr | eorDp | eorDpIndL | eorImm | eorAbs | eorAbsL | eorDpIndY | eorDpInd | eorSrIndY |
  eorDpX | eorDpIndLY | eorAbsY | eorAbsX | eorAbsLX | adcDpXInd | adcSr | adcDp | adcDpIndL | adcImm | adcAbs |
  adcAbsL | adcDpIndY | adcDpInd | adcSrIndY | adcDpX | adcDpIndLY | adcAbsY | adcAbsX | adcAbsLX | sbcDpXInd | sbcSr |
  sbcDp | sbcDpIndL | sbcImm | sbcAbs | sbcAbsL | sbcDpIndY | sbcDpInd | sbcSrIndY | sbcDpX | sbcDpIndLY | sbcAbsY |
  sbcAbsX | sbcAbsLX | cmpDpXInd | cmpSr | cmpDp | cmpDpIndL | cmpImm | cmpAbs | cmpAbsL | cmpDpIndY | cmpDpInd |
  cmpSrIndY | cmpDpX | cmpDpIndLY | cmpAbsY | cmpAbsX | cmpAbsLX | bitDp | bitAbs | bitDpX | bitAbsX | bitImm =>
    exact exec_charges rfl rfl (readCost_eq_default (widthCost_accumulator s) rfl)
  | ldxImm | ldxDp | ldxAbs | ldxDpY | ldxAbsY | ldyImm | ldyDp | ldyAbs | ldyDpX | ldyAbsX | cpxImm | cpxDp | cpxAbs |
  cpyImm | cpyDp | cpyAbs =>
    exact exec_charges rfl rfl (readCost_eq_default (widthCost_index s) rfl)
  | staDpXInd | staSr | staDp | staDpIndL | staAbs | staAbsL | staDpIndY | staDpInd | staSrIndY | staDpX | staDpIndLY |
  staAbsY | staAbsX | staAbsLX | stzDp | stzDpX | stzAbs | stzAbsX | aslDp | aslAbs | aslDpX | aslAbsX | lsrDp |
  lsrAbs | lsrDpX | lsrAbsX | rolDp | rolAbs | rolDpX | rolAbsX | rorDp | rorAbs | rorDpX | rorAbsX | incDp | incAbs |
  incDpX | incAbsX | decDp | decAbs | decDpX | decAbsX | tsbDp | tsbAbs | trbDp | trbAbs =>
    exact exec_charges rfl rfl (writeCost_eq_default (widthCost_accumulator s) rfl)
  | stxDp | stxAbs | stxDpY | styDp | styAbs | styDpX =>
    exact exec_charges rfl rfl (writeCost_eq_default (widthCost_index s) rfl)
  | pha =>
    exact exec_charges rfl (congrArg State.cyc (pushReg_eq _ _ _ s))
      (stackCost_eq_default (widthCost_accumulator s) rfl rfl)
  | pla =>
    exact exec_charges rfl (congrArg State.cyc (pla_eq _ s)) (stackCost_eq_default (widthCost_accumulator s) rfl rfl)
  | phx | phy =>
    exact exec_charges rfl (congrArg State.cyc (pushReg_eq _ _ _ s)) (stackCost_eq_default (widthCost_index s) rfl rfl)
  | plx =>
    exact exec_charges rfl (congrArg State.cyc (plx_eq _ s)) (stackCost_eq_default (widthCost_index s) rfl rfl)
  | ply =>
    exact exec_charges rfl (congrArg State.cyc (ply_eq _ s)) (stackCost_eq_default (widthCost_index s) rfl rfl)
  | pei => exact exec_charges rfl rfl (directPageCost_eq_default rfl)
  | brk | cop => exact exec_charges rfl (congrArg State.cyc (softwareInterrupt_eq _ _ s)) (frameCost_eq_default rfl rfl)
  | rti => exact exec_charges rfl (congrArg State.cyc (rti_eq _ s)) (frameCost_eq_default rfl rfl)
  | mvn => exact exec_charges rfl (congrArg State.cyc (blockMove_eq _ _ _ _ s)) (moveCost_eq_default (op := 0x54#8) rfl)
  | mvp => exact exec_charges rfl (congrArg State.cyc (blockMove_eq _ _ _ _ s)) (moveCost_eq_default (op := 0x44#8) rfl)
  | xce => exact exec_charges rfl (xce_cyc 0xFB#8 s) (baseCost_eq_default rfl rfl)
  | php => exact exec_charges rfl (congrArg State.cyc (php_eq _ s)) (baseCost_eq_default rfl rfl)
  | bpl | bmi | bvc | bvs | bra | bcc | bcs | bne | beq => simp [Instr.opcode] at hbranch
  | _ => exact exec_charges rfl rfl (baseCost_eq_default rfl rfl)

/-- R473: a short branch, in numbers: the page is that of the next instruction. -/
theorem branch_cyc {op : Byte} (hbase : baseCycles op = 2) (taken : Bool) (r : Byte) (s : State) :
    let target := BitVec.ofInt 16 ((s.pc.toNat + 2 : Nat) + r.toInt)
    let far := s.p.e && (target.toNat / 256 != (s.pc.toNat + 2) % 65536 / 256)
    (branch op taken r s).cyc = s.cyc + BitVec.ofNat 64
      (s.cycles op (2 + (if taken then 1 else 0) + (if taken && far then 1 else 0))) := by
  intro target far
  have hfar : (s.p.e && differentPages (s.pc + 2#16) (s.rel8Target r)) = far := by
    rw [s.rel8Target_eq_ofInt r, differentPages, bne_comm, BitVec.toNat_add]
    rfl
  rw [branch_eq, branchCycles, hbase, Bool.and_assoc, hfar]
  cases taken <;> cases far <;> rfl

/-! ## The parameter -/

/-- A row of a given CYCLES fits an opcode, its default cost and the state before. -/
def rowFits (op : Byte) (n : Nat) (s : State) (r : CycleRow) : Bool :=
  r.op == op && r.m8 == s.p.m8 && r.x8 == s.p.x8 && r.e == s.p.e && r.dLowZero == (loByte s.dp == 0x00#8) &&
    r.standard == n

theorem rowFits_eq_true_iff {op : Byte} {n : Nat} {s : State} {r : CycleRow} :
    rowFits op n s r = true ↔ r.op = op ∧ r.m8 = s.m8 ∧ r.x8 = s.x8 ∧ r.e = s.p.e ∧
      (r.dLowZero = true ↔ loByte s.dp = 0x00#8) ∧ r.standard = n := by
  have hd : r.dLowZero = (loByte s.dp == 0x00#8) ↔ (r.dLowZero = true ↔ loByte s.dp = 0x00#8) := by
    rw [Bool.eq_iff_iff, beq_iff_eq]
  simp only [rowFits, Bool.and_eq_true, beq_iff_eq, hd, State.m8, State.x8, and_assoc]

/-- R470: a given CYCLES is that of the first row that fits, and the default where none does. -/
theorem State.cycles_table {s : State} {rows : List CycleRow} (h : s.plat.cycles = .table rows) (op : Byte) (n : Nat) :
    s.cycles op n = (rows.find? (rowFits op n s)).elim n CycleRow.cycles := by
  have hrow : cycleRow rows op n s = rows.find? (rowFits op n s) := rfl
  simp only [State.cycles, h, hrow]
  cases rows.find? (rowFits op n s) <;> rfl

/-- R470: the function that nothing is known of. -/
theorem State.cycles_other {s : State} {k : Nat} (h : s.plat.cycles = .other k) (op : Byte) (n : Nat) :
    s.cycles op n = Config.cyclesOther k op s := by
  simp only [State.cycles, h]

/-- Settles O43: the instructions by the penalties of their opcode, the branches by `branch_cyc`, and the parameter by
its form, a table through its first row that fits. -/
theorem cyclesFollowTheTable : Obligations.CyclesFollowTheTable := by
  refine ⟨exec_cyc, fun r s f hf => ?branch, fun op n s =>
    ⟨fun h => State.cycles_standard h op n, fun k h => State.cycles_other h op n, fun rows h => ?table⟩⟩
  case branch =>
    intro next target far t ht
    have hexec : exec f.instr s = .next (branch f.op f.taken r s) := by fin_cases hf <;> rfl
    have hbase : baseCycles f.op = 2 := by fin_cases hf <;> dsimp only <;> decide
    cases hexec.symm.trans ht
    exact branch_cyc hbase f.taken r s
  case table =>
    intro fits
    have hfits : ∀ r, rowFits op n s r = true ↔ fits r := fun r => rowFits_eq_true_iff
    rw [State.cycles_table h]
    refine ⟨fun hnone => ?none, fun before r after hrows hbefore hr => ?some⟩
    case none =>
      rw [List.find?_eq_none.mpr fun r hr => (hfits r).not.mpr (hnone r hr)]
      rfl
    case some =>
      have hmiss : ∀ q ∈ before, (!rowFits op n s q) = true := fun q hq => by
        rw [Bool.not_eq_true', Bool.eq_false_iff]
        exact (hfits q).not.mpr (hbefore q hq)
      rw [List.find?_eq_some_iff_append.mpr ⟨(hfits r).mpr hr, before, after, hrows, hmiss⟩]
      rfl

end Sys2Proof.Machine
end
